-- ==== Sys2Proof/Word.lean ====
section
/-! DEFINITION. The word types of the DHT transaction engine (spec/10_state.md R20, R23; spec/00_scope.md R12). -/

namespace Sys2Proof

/-- One location of the RAW space: 8 bits, unsigned (R20). -/
abbrev Byte := BitVec 8

/-- The bit pattern of an IEEE 754 binary32 value (R23, R157). -/
abbrev Single := BitVec 32

/-- A line level: `true` is 1, the high level; `false` is 0, the low level (R12, D24). -/
abbrev Level := Bool

end Sys2Proof
end

