-- ==== Sys2Proof/Syntax.lean ====
section
/-! DEFINITION. The instructions: one constructor for each row of spec/opcode_table.json (spec/30_encoding.md R80 to R94). -/

namespace Sys2Proof

/-- The sensor variant tag (R24): 0 is Variant A, 1 is Variant B. -/
inductive Variant where
  | a
  | b
deriving DecidableEq, Repr

/-- The five polling waits W1 to W5 (40_decoder.md R117 to R121). -/
inductive WaitId where
  | w1
  | w2
  | w3
  | w4
  | w5
deriving DecidableEq, Repr

/-- The rows of spec/opcode_table.json. The first four are the host's command words (format CMD3), the
next three the 40-bit frame and its two field layouts (format FRAME40), the others the
micro-operations, which no word selects (R94). -/
inductive Instr where
  /-- INIT, `v01`: the new variant tag (R185). -/
  | init (v : Variant)
  /-- READ_SAMPLE, `v10`: bit `v` is ignored (R82, R170). -/
  | readSample (v : Bool)
  /-- READ_RAW, `v11`: bit `v` is ignored (R82, R128). -/
  | readRaw (v : Bool)
  /-- RSVD, `v00`: bit `v` is ignored (R83, R188). -/
  | rsvd (v : Bool)
  /-- FRAME40: the five bytes in the order of arrival, `RAW[0]` first (R87). -/
  | frame40 (a b d e c : Byte)
  /-- FRAME40.A: humidity, its unused fraction, temperature, its unused fraction, checksum (R88). -/
  | frame40A (h x t y c : Byte)
  /-- FRAME40.B: humidity in tenths, temperature sign and magnitude in tenths, checksum (R89). -/
  | frame40B (h : BitVec 16) (sgn : Bool) (m : BitVec 15) (c : Byte)
  /-- START: the start signal (R113). -/
  | start
  /-- WAIT: the polling wait, for the wait its operand names (R116). -/
  | wait (k : WaitId)
  /-- W1: the first edge wait (R117). -/
  | w1
  /-- W2: the response low pulse (R118). -/
  | w2
  /-- W3: the response high pulse (R119). -/
  | w3
  /-- W4: the bit's leading low marker (R120). -/
  | w4
  /-- W5: the return to low after the sample (R121). -/
  | w5
  /-- RESPONSE: W1, W2, W3 (R115). -/
  | response
  /-- RDBIT: one data bit (R123). -/
  | rdbit
  /-- RDFRAME: forty data bits (R125). -/
  | rdframe
  /-- CHECKSUM: the frame check (R126). -/
  | checksum
  /-- EXTRACT_TEMPERATURE (R150). -/
  | extractTemperature
  /-- EXTRACT_HUMIDITY (R151). -/
  | extractHumidity
  /-- RANGE_CHECK: the sanity filter (R159). -/
  | rangeCheck
deriving DecidableEq, Repr

end Sys2Proof
end

