-- ==== Sys2Proof/WellFormed.lean ====
section
/-! DEFINITION. Which instructions are well formed as words (spec/30_encoding.md R80, R87, R94). Every operand's width and
range is in its type, so what is left to check is whether the instruction has a word at all. -/

namespace Sys2Proof

/-- The formats of spec/opcode_table.json (R80, R87, R94). -/
inductive Format where
  | cmd3
  | frame40
  | microOp
deriving DecidableEq, Repr

/-- The format of an instruction's row. -/
def Instr.format : Instr → Format
  | .init _ => .cmd3
  | .readSample _ => .cmd3
  | .readRaw _ => .cmd3
  | .rsvd _ => .cmd3
  | .frame40 _ _ _ _ _ => .frame40
  | .frame40A _ _ _ _ _ => .frame40
  | .frame40B _ _ _ _ => .frame40
  | .start => .microOp
  | .wait _ => .microOp
  | .w1 => .microOp
  | .w2 => .microOp
  | .w3 => .microOp
  | .w4 => .microOp
  | .w5 => .microOp
  | .response => .microOp
  | .rdbit => .microOp
  | .rdframe => .microOp
  | .checksum => .microOp
  | .extractTemperature => .microOp
  | .extractHumidity => .microOp
  | .rangeCheck => .microOp

/-- Well formed as a word: a micro-operation is selected by `PHASE`, never by a word (R94). No
pattern of a command word or of a frame is illegal in itself (R81, R92). -/
def Instr.wellFormed (i : Instr) : Bool :=
  i.format != .microOp

end Sys2Proof
end

