-- ==== Sys2Proof/Decode.lean ====
section
/-! DEFINITION. Decoding and encoding of the command word CMD3 and of the frame FRAME40 (spec/30_encoding.md R80 to R90). -/

namespace Sys2Proof

/-! ### The command word (R80, R81, R82) -/

/-- `op`, bits 1:0 of the command word (R80). -/
def cmdOp (w : BitVec 3) : BitVec 2 := w.extractLsb' 0 2

/-- `v`, bit 2 of the command word (R80). -/
def cmdV (w : BitVec 3) : Bool := w.getLsbD 2

/-- The variant tag a bit stands for (R24). -/
def variantOfBit (v : Bool) : Variant := if v then .b else .a

/-- The bit that stands for a variant tag (R24). -/
def variantBit : Variant → Bool
  | .a => false
  | .b => true

/-- Decoding a command word: all eight words decode (R81). -/
def decodeCmd (w : BitVec 3) : Instr :=
  match cmdOp w with
  | 0b01#2 => .init (variantOfBit (cmdV w))
  | 0b10#2 => .readSample (cmdV w)
  | 0b11#2 => .readRaw (cmdV w)
  | _ => .rsvd (cmdV w)

/-! ### The frame (R52, R87, R88, R89) -/

/-- Byte `i` of a frame: `RAW[0]` is bits 39:32, `RAW[4]` bits 7:0 (R87). -/
def frameByte (f : BitVec 40) (i : Nat) : Byte := f.extractLsb' (32 - 8 * i) 8

/-- The frame of five bytes, the first in the high bits (R52). -/
def frameOfBytes (x0 x1 x2 x3 x4 : Byte) : BitVec 40 := x0 ++ x1 ++ x2 ++ x3 ++ x4

/-- FRAME40, fields `a b d e c` (R87). -/
def decodeFrame (f : BitVec 40) : Instr :=
  .frame40 (frameByte f 0) (frameByte f 1) (frameByte f 2) (frameByte f 3) (frameByte f 4)

/-- The frame's fields under a variant: FRAME40.A (R88) or FRAME40.B (R89). -/
def decodeFrameAs : Variant → BitVec 40 → Instr
  | .a, f => .frame40A (f.extractLsb' 32 8) (f.extractLsb' 24 8) (f.extractLsb' 16 8) (f.extractLsb' 8 8) (f.extractLsb' 0 8)
  | .b, f => .frame40B (f.extractLsb' 24 16) (f.getLsbD 23) (f.extractLsb' 8 15) (f.extractLsb' 0 8)

/-- The high byte of Variant B's temperature field: sign flag, then magnitude bits 14:8 (R89). -/
def signByte (sgn : Bool) (m : BitVec 15) : Byte := BitVec.ofBool sgn ++ m.extractLsb' 8 7

/-! ### Bytes -/

/-- Why bytes are no instruction. -/
inductive DecodeError where
  /-- Neither one byte (a command word) nor five bytes (a frame). -/
  | wrongLength
  /-- A command byte with a bit above the three of CMD3. -/
  | bitsAboveCommand
deriving DecidableEq, Repr

/-- Decoding bytes as they lie, lowest address first: one byte holds a command word in its low three
bits, five bytes a frame, `RAW[0]` first (R51, R80, R87; log 19). -/
def decodeBytes : List Byte → Except DecodeError Instr
  | [w] => if w.extractLsb' 3 5 = 0 then .ok (decodeCmd (w.extractLsb' 0 3)) else .error .bitsAboveCommand
  | [x0, x1, x2, x3, x4] => .ok (decodeFrame (frameOfBytes x0 x1 x2 x3 x4))
  | _ => .error .wrongLength

/-- How the fields of a frame are read: as bytes (R87) or under a variant (R88, R89). -/
inductive FrameView where
  | bytes
  | fields (v : Variant)
deriving DecidableEq, Repr

/-- Decoding bytes, the fields of a frame read under a view. -/
def decodeBytesAs (view : FrameView) (bs : List Byte) : Except DecodeError Instr :=
  match view, bs with
  | .fields v, [x0, x1, x2, x3, x4] => .ok (decodeFrameAs v (frameOfBytes x0 x1 x2 x3 x4))
  | _, bs => decodeBytes bs

/-- The bytes of an instruction bits `w` of which the table gives `nbits`: up to 8 bits one byte, up
to 40 bits the five bytes of a frame, highest bits at the lowest address (R52, R87; log 19). -/
def tableBytes (nbits w : Nat) : List Byte :=
  if nbits ≤ 8 then (if w < 256 then [BitVec.ofNat 8 w] else [])
  else if nbits ≤ 40 ∧ w < 2 ^ 40 then
    [frameByte (BitVec.ofNat 40 w) 0, frameByte (BitVec.ofNat 40 w) 1, frameByte (BitVec.ofNat 40 w) 2,
      frameByte (BitVec.ofNat 40 w) 3, frameByte (BitVec.ofNat 40 w) 4]
  else []

/-- The instruction the decoder reads from the table's bits. A row of no bits (a micro-operation)
has no word (R94). -/
def decodeTableWord (nbits w : Nat) : Option Instr :=
  if nbits = 0 then none else (decodeBytes (tableBytes nbits w)).toOption

/-! ### The encoder -/

/-- The command word of a variant bit and an operation (R80). -/
def cmdWord (v : Bool) (op : BitVec 2) : BitVec 3 := BitVec.ofBool v ++ op

/-- The byte a command word lies in (log 19). -/
def cmdByte (w : BitVec 3) : Byte := w.zeroExtend 8

/-- The bytes of an instruction, none for a micro-operation (R80, R81, R87, R88, R89, R94). -/
def encodeBytes : Instr → Option (List Byte)
  | .init v => some [cmdByte (cmdWord (variantBit v) 0b01#2)]
  | .readSample v => some [cmdByte (cmdWord v 0b10#2)]
  | .readRaw v => some [cmdByte (cmdWord v 0b11#2)]
  | .rsvd v => some [cmdByte (cmdWord v 0b00#2)]
  | .frame40 a b d e c => some [a, b, d, e, c]
  | .frame40A h x t y c => some [h, x, t, y, c]
  | .frame40B h sgn m c => some [h.extractLsb' 8 8, h.extractLsb' 0 8, signByte sgn m, m.extractLsb' 0 8, c]
  | .start => none
  | .wait _ => none
  | .w1 => none
  | .w2 => none
  | .w3 => none
  | .w4 => none
  | .w5 => none
  | .response => none
  | .rdbit => none
  | .rdframe => none
  | .checksum => none
  | .extractTemperature => none
  | .extractHumidity => none
  | .rangeCheck => none

/-- The view under which an instruction's bytes give it back: the table's three frame rows share
their words (R87, R88, R89). -/
def Instr.view : Instr → FrameView
  | .frame40A _ _ _ _ _ => .fields .a
  | .frame40B _ _ _ _ => .fields .b
  | .init _ => .bytes
  | .readSample _ => .bytes
  | .readRaw _ => .bytes
  | .rsvd _ => .bytes
  | .frame40 _ _ _ _ _ => .bytes
  | .start => .bytes
  | .wait _ => .bytes
  | .w1 => .bytes
  | .w2 => .bytes
  | .w3 => .bytes
  | .w4 => .bytes
  | .w5 => .bytes
  | .response => .bytes
  | .rdbit => .bytes
  | .rdframe => .bytes
  | .checksum => .bytes
  | .extractTemperature => .bytes
  | .extractHumidity => .bytes
  | .rangeCheck => .bytes

end Sys2Proof
end

