-- ==== Sys2Proof/Config.lean ====
section
/-! DEFINITION. The implementation parameters of spec/00_scope.md R7 to R10, and the free values. Whatever the spec
leaves OPEN is an opaque constant: nothing can be proved about its value but the constraint the spec gives. -/

namespace Sys2Proof

/-- The parameters, fixed for the life of the block (R41). Timing in the units R7 and R8 give, range
bounds in tenths (R9). -/
structure Params where
  /-- `T_START_LOW_MS[A]` (R7). -/
  tStartLowMsA : Nat
  /-- `T_START_LOW_MS[B]` (R7). -/
  tStartLowMsB : Nat
  /-- `CEIL_ACK_US` (R7). -/
  ceilAckUs : Nat
  /-- `CEIL_RESP_US` (R7). -/
  ceilRespUs : Nat
  /-- `CEIL_BIT_LOW_US` (R7). -/
  ceilBitLowUs : Nat
  /-- `T_SAMPLE_US` (R7). -/
  tSampleUs : Nat
  /-- `CEIL_BIT_HIGH_US` (R7). -/
  ceilBitHighUs : Nat
  /-- `TICK_US` (R8). -/
  tickUs : Nat
  /-- `T_START_HIGH_US` (R8). -/
  tStartHighUs : Nat
  /-- `TMIN_X10[A]` (R9). -/
  tMinX10A : Int
  /-- `TMAX_X10[A]` (R9). -/
  tMaxX10A : Int
  /-- `HMIN_X10[A]` (R9). -/
  hMinX10A : Int
  /-- `HMAX_X10[A]` (R9). -/
  hMaxX10A : Int
  /-- `TMIN_X10[B]` (R9). -/
  tMinX10B : Int
  /-- `TMAX_X10[B]` (R9). -/
  tMaxX10B : Int
  /-- `HMIN_X10[B]` (R9). -/
  hMinX10B : Int
  /-- `HMAX_X10[B]` (R9). -/
  hMaxX10B : Int
deriving DecidableEq, Repr

/-- The constraints R8 and R9 put on the OPEN parameters. -/
abbrev Params.Constrained (p : Params) : Prop :=
  1 ≤ p.tickUs ∧ p.tMinX10A ≤ 260 ∧ p.hMinX10A ≤ 450 ∧ 450 ≤ p.hMaxX10A ∧
    p.tMinX10B ≤ 195 ∧ 195 ≤ p.tMaxX10B ∧ p.hMinX10B ≤ 652 ∧ 652 ≤ p.hMaxX10B

/-- Free value: the level the line answers to the `Rd` of a given index, where the state lists no
answer (R58, U5; log 2). -/
opaque Config.freeLevel : Nat → Level

/-- OPEN `TICK_US`, less the 1 it is at least (R8; log 3). -/
opaque Config.tickUsPred : Nat

/-- OPEN `T_START_HIGH_US` (R8; log 3). -/
opaque Config.tStartHighUs : Nat

/-- OPEN: how far `TMIN_X10[A]` lies below 260 (R9; log 3). -/
opaque Config.tMinSlackA : Nat

/-- OPEN: how far `HMIN_X10[A]` lies below 450 (R9; log 3). -/
opaque Config.hMinSlackA : Nat

/-- OPEN: how far `HMAX_X10[A]` lies above 450 (R9; log 3). -/
opaque Config.hMaxSlackA : Nat

/-- OPEN: how far `TMIN_X10[B]` lies below 195 (R9; log 3). -/
opaque Config.tMinSlackB : Nat

/-- OPEN: how far `TMAX_X10[B]` lies above 195 (R9; log 3). -/
opaque Config.tMaxSlackB : Nat

/-- OPEN: how far `HMIN_X10[B]` lies below 652 (R9; log 3). -/
opaque Config.hMinSlackB : Nat

/-- OPEN: how far `HMAX_X10[B]` lies above 652 (R9; log 3). -/
opaque Config.hMaxSlackB : Nat

/-- The parameters the machine has at reset: the defaults of R7, the one bound R9 states, and the
OPEN ones (log 3). -/
def Config.params : Params where
  tStartLowMsA := 50
  tStartLowMsB := 20
  ceilAckUs := 60
  ceilRespUs := 100
  ceilBitLowUs := 70
  tSampleUs := 35
  ceilBitHighUs := 100
  tickUs := Config.tickUsPred + 1
  tStartHighUs := Config.tStartHighUs
  tMinX10A := 260 - Config.tMinSlackA
  tMaxX10A := 500
  hMinX10A := 450 - Config.hMinSlackA
  hMaxX10A := 450 + Config.hMaxSlackA
  tMinX10B := 195 - Config.tMinSlackB
  tMaxX10B := 195 + Config.tMaxSlackB
  hMinX10B := 652 - Config.hMinSlackB
  hMaxX10B := 652 + Config.hMaxSlackB

end Sys2Proof
end

