-- ==== Sys2Proof/Machine/State.lean ====
section
/-! DEFINITION. The state of the engine as plain data (spec/10_state.md), its stops, and the state after reset (R39, R230). -/

namespace Sys2Proof.Machine

/-- `PHASE`, the program counter (R27). `rd k` and `tk k` are `Wk_RD` and `Wk_TK`. -/
inductive Phase where
  | idle
  | stDir
  | stLow
  | stHold
  | stHigh
  | stRelHold
  | stRelease
  | rd (k : WaitId)
  | tk (k : WaitId)
  | bDly
  | bSmp
  | check
  | extract
  | range
  | done
  | fail
deriving DecidableEq, Repr

/-- `STATUS`: the five codes that are produced (R32, R91). -/
inductive Status where
  | ok
  | fail
  | timeout
  | checksum
  | initErr
deriving DecidableEq, Repr

/-- The error kinds (R200). -/
inductive ErrorKind where
  | initError
  | timeout
  | checksumError
  | fail
deriving DecidableEq, Repr

/-- `OP`: the two operations that are ever latched there (R30; row T0c of R112; log 5). -/
inductive ReadOp where
  | readSample
  | readRaw
deriving DecidableEq, Repr

/-- One line operation of the trace (R14, R55 to R60). -/
inductive LineOp where
  | dir (o : Bool)
  | wr (l : Level)
  | rd (v : Level)
  | dlyMs (n : Nat)
  | dlyUs (n : Nat)
deriving DecidableEq, Repr

/-- The general registers `RAW[0..4]`, the RAW space (R20, R50, R51). -/
structure Raw where
  b0 : Byte
  b1 : Byte
  b2 : Byte
  b3 : Byte
  b4 : Byte
deriving DecidableEq, Repr

/-- Which data fields of the coming response are defined (R36; log 7). -/
inductive RspKind where
  | nothing
  | raw
  | pair
deriving DecidableEq, Repr

/-- The defined data fields of a response; an undefined field does not exist (R36, U3; log 7). -/
inductive RspData where
  | nothing
  | raw (frame : BitVec 40)
  | pair (temp hum : Single)
deriving DecidableEq, Repr

/-- What the response port carries while `rsp_valid` is 1 (R36). -/
structure Response where
  status : Status
  data : RspData
deriving DecidableEq, Repr

/-- What the host does next (R6, R35, R225, R230; log 1, log 12). -/
inductive HostEvent where
  /-- Presents a command word and the level of `cap[4:0]`, and holds both until it is accepted. -/
  | command (w : BitVec 3) (cap : BitVec 5)
  /-- Presents nothing during one step. -/
  | pass
  /-- Asserts the reset input during one step. -/
  | reset
deriving DecidableEq, Repr

/-- The state of the machine. Fields up to `rsp` are the spec's registers and response port; `cap`,
`host`, `lineIn` are its inputs; `params`, `reads`, `trace`, `due` are the model's own. -/
structure State where
  /-- The parameters, which no step changes (R7, R8, R9, R41; log 3). -/
  params : Params
  /-- `PHASE` (R27). -/
  phase : Phase
  /-- `BYTE_IDX` (R28). -/
  byteIdx : Fin 5
  /-- `BIT_IDX` (R28). -/
  bitIdx : Fin 8
  /-- `ELAPSED`, in µs (R29). -/
  elapsed : Nat
  /-- `OP` (R30; log 5). -/
  op : ReadOp
  /-- `VARIANT` (R24). -/
  variant : Variant
  /-- `INITED` (R25). -/
  inited : Bool
  /-- `LINE_OE` (R31). -/
  lineOE : Bool
  /-- `LINE_OUT` (R31). -/
  lineOut : Level
  /-- `STATUS` (R32). -/
  status : Status
  /-- `RAW[0..4]` (R20). -/
  raw : Raw
  /-- `SBIT` (R22). -/
  sbit : Level
  /-- `TEMP` (R23). -/
  temp : Single
  /-- `HUM` (R23). -/
  hum : Single
  /-- The response port: present exactly while `rsp_valid` is 1 (R36). -/
  rsp : Option Response
  /-- Which data the coming response defines (R36; log 7). -/
  due : RspKind
  /-- The input `CAP[4:0]` (R26; log 1). -/
  cap : BitVec 5
  /-- What the host does next, first event first (R35; log 1). -/
  host : List HostEvent
  /-- The answers to the next `Rd`s, first answer first (R58; log 2). -/
  lineIn : List Level
  /-- How many `Rd` were performed: the index of a free answer (log 2). -/
  reads : Nat
  /-- The line operations of the current or last command, newest first (R14; log 6). -/
  trace : List LineOp
deriving DecidableEq, Repr

/-- Why the machine stops with a fault. Neither is reached from reset. -/
inductive Fault where
  /-- Raised by `Rd` while `LINE_OE` is 1, which the spec gives no meaning (R58, D23; log 13). Safe. -/
  | readWhileDriving
  /-- Raised by `Wr` while `LINE_OE` is 0, which the spec gives no meaning (R57, D23; log 13). Safe. -/
  | writeWhileReleased
deriving DecidableEq, Repr

/-- Why the model has no meaning to offer. -/
inductive Refusal where
  /-- Answered by `exec` for an instruction that has no meaning yet; at present by none. Safe. -/
  | notModelled (mnemonic : String)
deriving DecidableEq, Repr

/-- The state after reset (R39, R230). `PHASE`, `INITED`, `LINE_OE`, `LINE_OUT`, `STATUS` and
`rsp_valid` are the spec's; the registers R39 gives no value hold those of log 4. -/
def State.reset : State where
  params := Config.params
  phase := .idle
  byteIdx := 0
  bitIdx := 0
  elapsed := 0
  op := .readSample
  variant := .a
  inited := false
  lineOE := false
  lineOut := true
  status := .ok
  raw := ⟨0, 0, 0, 0, 0⟩
  sbit := false
  temp := 0
  hum := 0
  rsp := none
  due := .nothing
  cap := 0
  host := []
  lineIn := []
  reads := 0
  trace := []

end Sys2Proof.Machine
end

