-- ==== Sys2Proof/Machine/Ops.lean ====
section
/-! DEFINITION. The named operations over the registers, the RAW space and the line, raising an error and the return from it
(spec/20_memory.md R50 to R65; spec/60_exceptions.md R205, R208). -/

namespace Sys2Proof.Machine

/-- The outcome of a meaning and of a step. -/
abbrev Result := Host.Outcome State Fault Refusal

/-- Two meanings one after the other. -/
def andThen (r : Result) (k : State → Result) : Result :=
  match r with
  | .next s => k s
  | .fault e => .fault e
  | .refused e => .refused e

/-! ### The RAW space (R13, R50 to R52, R61) -/

/-- `x[i]`, the read of one byte: `MemRead(RAW + i, 1)` (R13). -/
def Raw.get (r : Raw) (i : Fin 5) : Byte :=
  match i with
  | 0 => r.b0
  | 1 => r.b1
  | 2 => r.b2
  | 3 => r.b3
  | 4 => r.b4

/-- `x[i] <- v`, the write of one byte: `MemWrite(RAW + i, 1, v)` (R13). -/
def Raw.put (r : Raw) (i : Fin 5) (v : Byte) : Raw :=
  match i with
  | 0 => { r with b0 := v }
  | 1 => { r with b1 := v }
  | 2 => { r with b2 := v }
  | 3 => { r with b3 := v }
  | 4 => { r with b4 := v }

/-- A byte with its bit `k` replaced (R13, `x[i][k] <- b`). -/
def withBit (x : Byte) (k : Fin 8) (b : Bool) : Byte :=
  (x &&& ~~~(1#8 <<< k.val)) ||| (if b then 1#8 <<< k.val else 0#8)

/-- `x[i][k] <- b`: one bit written, the others unchanged (R13). -/
def Raw.putBit (r : Raw) (i : Fin 5) (k : Fin 8) (b : Bool) : Raw :=
  r.put i (withBit (r.get i) k b)

/-- `FRAME[39:0]`, the five registers as one value (R52, R87). -/
def Raw.frame (r : Raw) : BitVec 40 := r.b0 ++ r.b1 ++ r.b2 ++ r.b3 ++ r.b4

/-- The registers that hold a frame (R87). -/
def Raw.ofFrame (f : BitVec 40) : Raw where
  b0 := f.extractLsb' 32 8
  b1 := f.extractLsb' 24 8
  b2 := f.extractLsb' 16 8
  b3 := f.extractLsb' 8 8
  b4 := f.extractLsb' 0 8

/-! ### The five line operations (R55 to R60) -/

/-- `Dir(o)`: `LINE_OE <- o` (R56). -/
def dir (o : Bool) (s : State) : State :=
  { s with lineOE := o, trace := .dir o :: s.trace }

/-- `Wr(l)`: `LINE_OUT <- l` (R57). On a released line it has no meaning (R57, D23; log 13). -/
def wr (l : Level) (s : State) (k : State → Result) : Result :=
  if s.lineOE then k { s with lineOut := l, trace := .wr l :: s.trace }
  else .fault .writeWhileReleased

/-- The level the next `Rd` returns: the first listed answer, else a free value (R58, U5; log 2). -/
def State.nextLevel (s : State) : Level :=
  match s.lineIn with
  | v :: _ => v
  | [] => Config.freeLevel s.reads

/-- The state after one `Rd` (R58, R62): no register changes. -/
def State.afterRead (s : State) : State :=
  { s with lineIn := s.lineIn.tail, reads := s.reads + 1, trace := .rd s.nextLevel :: s.trace }

/-- `Rd()`, its level and the state after it handed on (R58). While the engine drives it has no
meaning (R58, D23; log 13). -/
def rd (s : State) (k : Level → State → Result) : Result :=
  if s.lineOE then .fault .readWhileDriving else k s.nextLevel s.afterRead

/-- `DlyMs(n)` (R59). -/
def delayMs (n : Nat) (s : State) : State := { s with trace := .dlyMs n :: s.trace }

/-- `DlyUs(n)`, also when `n` is 0 (R60). -/
def delayUs (n : Nat) (s : State) : State := { s with trace := .dlyUs n :: s.trace }

/-! ### Time (R15) -/

/-- How far one line operation advances the bookkeeping clock `NOW`, in µs (R15, R59, R60). -/
def LineOp.micros : LineOp → Nat
  | .dir _ => 0
  | .wr _ => 0
  | .rd _ => 0
  | .dlyMs n => 1000 * n
  | .dlyUs n => n

/-- `NOW`: the time since the command was accepted, a function of its trace (R15; log 14). -/
def now (t : List LineOp) : Nat := (t.map LineOp.micros).sum

/-! ### Commands, errors, completion (R35, R205, R208; rows T0, T19, T20 of R112) -/

/-- What every accepted command does first: its trace is empty (R14, R35). -/
def accept (s : State) : State := { s with trace := [] }

/-- The status code of an error kind (R200). -/
def ErrorKind.status : ErrorKind → Status
  | .initError => .initErr
  | .timeout => .timeout
  | .checksumError => .checksum
  | .fail => .fail

/-- `raise E()`: `STATUS <- code(E)`, `PHASE <- FAIL`, nothing else saved (R205). -/
def raise (e : ErrorKind) (s : State) : State := { s with status := e.status, phase := .fail }

/-- Completion without an error: `STATUS <- ST_OK`, `PHASE <- DONE`, and which data fields the
response defines (R36; rows T0a, T13, T17). -/
def finish (k : RspKind) (s : State) : State := { s with status := .ok, due := k, phase := .done }

/-- The defined data fields of the response that leaves `DONE` (R36). -/
def dueData (s : State) : RspData :=
  match s.due with
  | .nothing => .nothing
  | .raw => .raw s.raw.frame
  | .pair => .pair s.temp s.hum

/-- The return: `DONE` and `FAIL` pulse `rsp_valid` and go to `IDLE`; nothing is restored (R205, R208;
rows T19, T20). After an error no data field is defined (R36). -/
def deliver (s : State) : State :=
  { s with
    phase := .idle
    rsp := some ⟨s.status, if s.phase = .done then dueData s else .nothing⟩ }

/-- The reset input asserted for one step: every register as after reset, the command abandoned, no
response, the trace left where it was (R230, R231; log 12). -/
def resetBy (s : State) : State :=
  { State.reset with
    params := s.params, cap := s.cap, host := s.host, lineIn := s.lineIn, reads := s.reads, trace := s.trace }

end Sys2Proof.Machine
end

