-- ==== Sys2Proof/Machine/Operands.lean ====
section
/-! DEFINITION. Operands: the parameters by variant and wait (spec/00_scope.md R7 to R9; spec/40_decoder.md R112), the fields
of a frame (spec/30_encoding.md R90), the extracted values in tenths and in binary32 (spec/41_extractor.md R150 to R158). -/

namespace Sys2Proof.Machine

/-! ### Parameters -/

/-- `T_START_LOW_MS[v]` (R7). -/
def startLowMs (p : Params) : Variant → Nat
  | .a => p.tStartLowMsA
  | .b => p.tStartLowMsB

/-- `L_k`, the level a wait waits out (R112). -/
def waitLevel : WaitId → Level
  | .w1 => true
  | .w2 => false
  | .w3 => true
  | .w4 => false
  | .w5 => true

/-- `C_k`, the ceiling of a wait (R112). -/
def ceiling (p : Params) : WaitId → Nat
  | .w1 => p.ceilAckUs
  | .w2 => p.ceilRespUs
  | .w3 => p.ceilRespUs
  | .w4 => p.ceilBitLowUs
  | .w5 => p.ceilBitHighUs

/-- `TMIN_X10[v]` (R9). -/
def tMin (p : Params) : Variant → Int
  | .a => p.tMinX10A
  | .b => p.tMinX10B

/-- `TMAX_X10[v]` (R9). -/
def tMax (p : Params) : Variant → Int
  | .a => p.tMaxX10A
  | .b => p.tMaxX10B

/-- `HMIN_X10[v]` (R9). -/
def hMin (p : Params) : Variant → Int
  | .a => p.hMinX10A
  | .b => p.hMinX10B

/-- `HMAX_X10[v]` (R9). -/
def hMax (p : Params) : Variant → Int
  | .a => p.hMaxX10A
  | .b => p.hMaxX10B

/-! ### Fields of a frame (R53, R90) -/

/-- A 16-bit field of two bytes, the high byte first (R53, R156). -/
def field16 (hi lo : Byte) : Nat := hi.toNat * 256 + lo.toNat

/-- Variant B's sign flag, `x[2][7]` (R90). -/
def tempSign (x2 : Byte) : Bool := x2.getLsbD 7

/-- Variant B's temperature magnitude, `zext_7(x[2][6:0]) * 256 + zext_8(x[3])` (R90). -/
def tempMagnitude (x2 x3 : Byte) : Nat := (x2.extractLsb' 0 7).toNat * 256 + x3.toNat

/-! ### Tenths (R150, R151, R158) -/

/-- `T_X10` (R150). -/
def tX10 (v : Variant) (x2 x3 : Byte) : Int :=
  match v with
  | .a => 10 * (x2.toNat : Int)
  | .b => if tempSign x2 then -(tempMagnitude x2 x3 : Int) else (tempMagnitude x2 x3 : Int)

/-- `H_X10` (R151). -/
def hX10 (v : Variant) (x0 x1 : Byte) : Nat :=
  match v with
  | .a => 10 * x0.toNat
  | .b => field16 x0 x1

/-! ### binary32 (R157; log 17) -/

/-- The integer nearest to `a / b`, ties to even. -/
def roundHalfEven (a b : Nat) : Nat :=
  if 2 * (a % b) < b ∨ (2 * (a % b) = b ∧ a / b % 2 = 0) then a / b else a / b + 1

/-- `f32(n / d)`: the binary32 pattern nearest the rational `n / d`, ties to even (R157). For a
quotient that is 0 or at least 1/16, as all that occur are: with `2^(k-4)` the power of two at or
below the quotient, the 24-bit significand is rounded once; a carry out of it goes into the exponent. -/
def f32 (n d : Nat) : Single :=
  if n = 0 then 0
  else BitVec.ofNat 32 ((Nat.log2 (16 * n / d) + 122) * 2 ^ 23 +
    roundHalfEven (n * 2 ^ 27) (d * 2 ^ Nat.log2 (16 * n / d)))

/-- Negation flips the sign bit (R157). -/
def negate (x : Single) : Single := x ^^^ 0x80000000#32

/-- `TEMP` as EXTRACT_TEMPERATURE writes it (R150, R155). -/
def temperature (v : Variant) (x2 x3 : Byte) : Single :=
  match v with
  | .a => f32 x2.toNat 1
  | .b => if tempSign x2 then negate (f32 (tempMagnitude x2 x3) 10) else f32 (tempMagnitude x2 x3) 10

/-- `HUM` as EXTRACT_HUMIDITY writes it (R151). -/
def humidity (v : Variant) (x0 x1 : Byte) : Single :=
  match v with
  | .a => f32 x0.toNat 1
  | .b => f32 (field16 x0 x1) 10

/-- The magnitude of a finite binary32 pattern, as a multiple of `2^-150`. -/
def magnitude150 (x : Single) : Nat :=
  if x.extractLsb' 23 8 = 0#8 then 2 * (x.extractLsb' 0 23).toNat
  else (2 ^ 23 + (x.extractLsb' 0 23).toNat) * 2 ^ (x.extractLsb' 23 8).toNat

/-- The tenths view of a binary32 pattern: the integer nearest ten times its value. For the images
`f32(n / 10)` that `TEMP` and `HUM` hold it gives `n` back (R158; log 17). -/
def tenthsOf (x : Single) : Int :=
  if x.getLsbD 31 then -(roundHalfEven (10 * magnitude150 x) (2 ^ 150) : Int)
  else (roundHalfEven (10 * magnitude150 x) (2 ^ 150) : Int)

end Sys2Proof.Machine
end

