-- ==== Sys2Proof/Machine/Flags.lean ====
section
/-! DEFINITION. The flags and tests of the engine: BUSY, the status code, the capability test, the frame check, the range test
(spec/10_state.md R33; spec/30_encoding.md R91; spec/40_decoder.md R126; spec/41_extractor.md R159). The block has no
arithmetic condition codes (R33). -/

namespace Sys2Proof.Machine

/-- `BUSY = (PHASE != IDLE)` (R33). -/
def busy (s : State) : Bool := s.phase != .idle

/-- `cmd_ready = not BUSY` (R35). -/
def cmdReady (s : State) : Bool := !busy s

/-- The code of `STATUS` (R91). -/
def Status.code : Status → BitVec 3
  | .ok => 0
  | .fail => 1
  | .timeout => 2
  | .checksum => 3
  | .initErr => 4

/-- The value of `OP` as the two bits of the command word (R30, R81). -/
def ReadOp.code : ReadOp → BitVec 2
  | .readSample => 0b10#2
  | .readRaw => 0b11#2

/-- All five capabilities are bound: `cap[4:0] = 0b11111` (R26, R185, R187). -/
def allBound (cap : BitVec 5) : Bool := cap = 0b11111#5

/-- The low 8 bits of the sum of the first four bytes (R126, R156). -/
def checkByte (r : Raw) : Byte := r.b0 + r.b1 + r.b2 + r.b3

/-- The frame check (R87, R126). -/
def sumOk (r : Raw) : Bool := checkByte r = r.b4

/-- The range test on tenths, bounds inclusive (R159). -/
def inRange (p : Params) (v : Variant) (t h : Int) : Bool :=
  tMin p v ≤ t && t ≤ tMax p v && (hMin p v ≤ h && h ≤ hMax p v)

end Sys2Proof.Machine
end

