-- ==== Sys2Proof/Machine/Wait.lean ====
section
/-! DEFINITION. WAIT, its five waits W1 to W5, and RESPONSE: rows T7 to T10 of spec/40_decoder.md R112 (R115 to R121, R124). -/

namespace Sys2Proof.Machine

/-- The index advance that ends a bit (R124). -/
def advance (s : State) : State :=
  if 0 < s.bitIdx.val then { s with bitIdx := s.bitIdx - 1, elapsed := 0, phase := .rd .w4 }
  else if s.byteIdx.val < 4 then { s with byteIdx := s.byteIdx + 1, bitIdx := 7, elapsed := 0, phase := .rd .w4 }
  else { s with phase := .check }

/-- The exit writes and the exit PHASE of a wait (R112, the table of the five waits). -/
def waitExit (k : WaitId) (s : State) : State :=
  match k with
  | .w1 => { s with elapsed := 0, phase := .rd .w2 }
  | .w2 => { s with elapsed := 0, phase := .rd .w3 }
  | .w3 => { s with byteIdx := 0, bitIdx := 7, elapsed := 0, phase := .rd .w4 }
  | .w4 => { s with phase := .bDly }
  | .w5 => advance s

/-- `Wk_RD`: one read; the level waited for ends the wait, whatever ELAPSED is (R116, R207; rows T7, T8). -/
def waitRead (k : WaitId) (s : State) : Result :=
  rd s fun v t => .next (if v = waitLevel k then { t with phase := .tk k } else waitExit k t)

/-- `Wk_TK`: one tick; exceeding the ceiling raises `Timeout` (R116; rows T9, T10). -/
def waitTick (k : WaitId) (s : State) : Result :=
  .next
    (if s.elapsed + s.params.tickUs ≤ ceiling s.params k then
      { delayUs s.params.tickUs s with elapsed := s.elapsed + s.params.tickUs, phase := .rd k }
    else raise .timeout { delayUs s.params.tickUs s with elapsed := s.elapsed + s.params.tickUs })

/-- Entering a wait: `ELAPSED <- 0`, first its read (R116); inside the wait, nothing (log 9). -/
def enterWait (k : WaitId) (s : State) : State :=
  if s.phase = .rd k ∨ s.phase = .tk k then s else { s with elapsed := 0, phase := .rd k }

/-- One micro-step of wait `k` (R116): the one `PHASE` selects, from elsewhere the wait's first. -/
def waitStep (k : WaitId) (s : State) : Result :=
  if s.phase = .tk k then waitTick k s else waitRead k (enterWait k s)

/-- WAIT(L_k, C_k) (R116). -/
def execWait (k : WaitId) (s : State) : Result := waitStep k s

/-- W1 = WAIT(1, CEIL_ACK_US) (R117). -/
def execW1 (s : State) : Result := waitStep .w1 s

/-- W2 = WAIT(0, CEIL_RESP_US) (R118). -/
def execW2 (s : State) : Result := waitStep .w2 s

/-- W3 = WAIT(1, CEIL_RESP_US) (R119). -/
def execW3 (s : State) : Result := waitStep .w3 s

/-- W4 = WAIT(0, CEIL_BIT_LOW_US) (R120). -/
def execW4 (s : State) : Result := waitStep .w4 s

/-- W5 = WAIT(1, CEIL_BIT_HIGH_US) (R121). -/
def execW5 (s : State) : Result := waitStep .w5 s

/-- RESPONSE: W1, then W2, then W3 (R115): the micro-step `PHASE` selects, from elsewhere W1's first
(log 8, log 9). -/
def execResponse (s : State) : Result :=
  match s.phase with
  | .rd .w2 => waitStep .w2 s
  | .tk .w2 => waitStep .w2 s
  | .rd .w3 => waitStep .w3 s
  | .tk .w3 => waitStep .w3 s
  | _ => waitStep .w1 s

end Sys2Proof.Machine
end

