-- ==== Sys2Proof/Machine/Bit.lean ====
section
/-! DEFINITION. RDBIT and RDFRAME: rows T7 to T12 of spec/40_decoder.md R112 (R123 to R125; spec/30_encoding.md R86, R90). -/

namespace Sys2Proof.Machine

/-- `B_SMP`: the one sample of the bit, stored at `RAW[BYTE_IDX][BIT_IDX]` (R90, R123; row T12). -/
def sampleBit (s : State) : Result :=
  rd s fun v t =>
    .next { t with sbit := v, raw := t.raw.putBit t.byteIdx t.bitIdx v, elapsed := 0, phase := .rd .w5 }

/-- One micro-step of a bit (R123): W4, the sample delay, the sample, W5; from elsewhere W4's first. -/
def bitStep (s : State) : Result :=
  match s.phase with
  | .bDly => .next { delayUs s.params.tSampleUs s with phase := .bSmp }
  | .bSmp => sampleBit s
  | .rd .w5 => waitStep .w5 s
  | .tk .w5 => waitStep .w5 s
  | _ => waitStep .w4 s

/-- RDBIT (R123; log 8, log 9). -/
def execRdbit (s : State) : Result := bitStep s

/-- `PHASE` stands inside a bit (the table's `selected_by` of RDBIT). -/
def inBit : Phase → Bool
  | .rd .w4 => true
  | .tk .w4 => true
  | .bDly => true
  | .bSmp => true
  | .rd .w5 => true
  | .tk .w5 => true
  | _ => false

/-- RDFRAME (R125): the micro-step of the bit in progress; from elsewhere the first one of bit 7 of
byte 0 (log 8, log 9). -/
def execRdframe (s : State) : Result :=
  if inBit s.phase then bitStep s else bitStep { s with byteIdx := 0, bitIdx := 7 }

end Sys2Proof.Machine
end

