-- ==== Sys2Proof/Machine/Check.lean ====
section
/-! DEFINITION. CHECKSUM, EXTRACT_TEMPERATURE, EXTRACT_HUMIDITY, RANGE_CHECK and the frame rows FRAME40, FRAME40.A, FRAME40.B:
rows T13 to T18 of spec/40_decoder.md R112 (R126; spec/41_extractor.md R150, R151, R159; spec/30_encoding.md R87 to R89). -/

namespace Sys2Proof.Machine

/-- The frame check and where the command goes from it (R126, R129; rows T13, T14, T15). -/
def checkFrame (s : State) : Result :=
  .next
    (if sumOk s.raw then
      match s.op with
      | .readRaw => finish .raw s
      | .readSample => { s with phase := .extract }
    else raise .checksumError s)

/-- CHECKSUM (R126). -/
def execChecksum (s : State) : Result := checkFrame s

/-- EXTRACT_TEMPERATURE: `TEMP` from `VARIANT`, `x[2]`, `x[3]`; it never fails (R150; row T16; log 11). -/
def execExtractTemperature (s : State) : Result :=
  .next { s with temp := temperature s.variant s.raw.b2 s.raw.b3 }

/-- EXTRACT_HUMIDITY: `HUM` from `VARIANT`, `x[0]`, `x[1]`; it never fails. It ends row T16, so
PHASE goes to RANGE (R151; log 11). -/
def execExtractHumidity (s : State) : Result :=
  .next { s with hum := humidity s.variant s.raw.b0 s.raw.b1, phase := .range }

/-- RANGE_CHECK on the tenths of `TEMP` and `HUM` (R158, R159; rows T17, T18; log 17). -/
def execRangeCheck (s : State) : Result :=
  .next
    (if inRange s.params s.variant (tenthsOf s.temp) (tenthsOf s.hum) then finish .pair s
    else raise .fail s)

/-- FRAME40: the frame whose bytes these are stands in RAW and is checked (R87, R126; log 10). -/
def execFrame40 (a b d e c : Byte) (s : State) : Result :=
  checkFrame { s with raw := ⟨a, b, d, e, c⟩ }

/-- The frame in RAW read under variant `v`: both values extracted, then RANGE (R150, R151; row T16). -/
def extractFrame (v : Variant) (s : State) : Result :=
  .next
    { s with
      temp := temperature v s.raw.b2 s.raw.b3
      hum := humidity v s.raw.b0 s.raw.b1
      phase := .range }

/-- FRAME40.A: the frame of these fields stands in RAW and is read under Variant A (R88; log 10). -/
def execFrame40A (h x t y c : Byte) (s : State) : Result :=
  extractFrame .a { s with raw := ⟨h, x, t, y, c⟩ }

/-- FRAME40.B: the frame of these fields stands in RAW and is read under Variant B (R89; log 10). -/
def execFrame40B (h : BitVec 16) (sgn : Bool) (m : BitVec 15) (c : Byte) (s : State) : Result :=
  extractFrame .b
    { s with raw := ⟨h.extractLsb' 8 8, h.extractLsb' 0 8, signByte sgn m, m.extractLsb' 0 8, c⟩ }

end Sys2Proof.Machine
end

