-- ==== Sys2Proof/Machine/Command.lean ====
section
/-! DEFINITION. The host's commands INIT, READ_SAMPLE, READ_RAW, RSVD: rows T0a to T0e of spec/40_decoder.md R112
(spec/43_init.md R185 to R188; spec/42_pipeline.md R170, R172). A command is accepted in IDLE only; presented while BUSY
it is ignored (spec/10_state.md R35; log 15). -/

namespace Sys2Proof.Machine

/-- A command's effect, if the engine accepts it: while BUSY, `cmd` and `cap` are ignored (R35). -/
def accepted (s : State) (k : State → State) : Result :=
  if busy s then .next s else .next (k (accept s))

/-- INIT: the capability test, then the tag (R185, R186; rows T0a, T0b). -/
def execInit (v : Variant) (s : State) : Result :=
  accepted s fun t =>
    if allBound t.cap then finish .nothing { t with variant := v, inited := true }
    else raise .initError { t with inited := false }

/-- A READ command: starts a transaction if INITED is 1, else raises `Fail` (R128, R170, R172; rows
T0c, T0d). -/
def startRead (o : ReadOp) (s : State) : Result :=
  accepted s fun t =>
    if t.inited then { t with op := o, phase := .stDir } else raise .fail t

/-- READ_SAMPLE; bit `v` is ignored (R82, R170). -/
def execReadSample (_v : Bool) (s : State) : Result := startRead .readSample s

/-- READ_RAW; bit `v` is ignored (R82, R128). -/
def execReadRaw (_v : Bool) (s : State) : Result := startRead .readRaw s

/-- RSVD: reports the generic failure, nothing else (R83, R188; row T0e). -/
def execRsvd (_v : Bool) (s : State) : Result := accepted s (raise .fail)

end Sys2Proof.Machine
end

