-- ==== Sys2Proof/Machine/Start.lean ====
section
/-! DEFINITION. START, the start signal: rows T1 to T6 of spec/40_decoder.md R112 (R113, R114; spec/30_encoding.md R84). -/

namespace Sys2Proof.Machine

/-- START: the micro-step `PHASE` selects; from a PHASE outside START its first one (R113; log 8, log 9). -/
def execStart (s : State) : Result :=
  match s.phase with
  | .stLow => wr false s fun t => .next { t with phase := .stHold }
  | .stHold => .next { delayMs (startLowMs s.params s.variant) s with phase := .stHigh }
  | .stHigh => wr true s fun t => .next { t with phase := .stRelHold }
  | .stRelHold => .next { delayUs s.params.tStartHighUs s with phase := .stRelease }
  | .stRelease => .next { dir false s with elapsed := 0, phase := .rd .w1 }
  | _ => .next { dir true s with phase := .stLow }

end Sys2Proof.Machine
end

