-- ==== Sys2Proof/Machine/Dispatch.lean ====
section
/-! DEFINITION. The dispatch: one arm for each row of spec/opcode_table.json. -/

namespace Sys2Proof.Machine

def exec (i : Instr) (s : State) : Host.Outcome State Fault Refusal :=
  match i with
  -- the host's commands
  | .init v => Sys2Proof.Machine.execInit v s
  | .readSample v => Sys2Proof.Machine.execReadSample v s
  | .readRaw v => Sys2Proof.Machine.execReadRaw v s
  | .rsvd v => Sys2Proof.Machine.execRsvd v s
  -- the frame and its two layouts
  | .frame40 a b d e c => Sys2Proof.Machine.execFrame40 a b d e c s
  | .frame40A h x t y c => Sys2Proof.Machine.execFrame40A h x t y c s
  | .frame40B h sgn m c => Sys2Proof.Machine.execFrame40B h sgn m c s
  -- the micro-operations
  | .start => Sys2Proof.Machine.execStart s
  | .wait k => Sys2Proof.Machine.execWait k s
  | .w1 => Sys2Proof.Machine.execW1 s
  | .w2 => Sys2Proof.Machine.execW2 s
  | .w3 => Sys2Proof.Machine.execW3 s
  | .w4 => Sys2Proof.Machine.execW4 s
  | .w5 => Sys2Proof.Machine.execW5 s
  | .response => Sys2Proof.Machine.execResponse s
  | .rdbit => Sys2Proof.Machine.execRdbit s
  | .rdframe => Sys2Proof.Machine.execRdframe s
  | .checksum => Sys2Proof.Machine.execChecksum s
  | .extractTemperature => Sys2Proof.Machine.execExtractTemperature s
  | .extractHumidity => Sys2Proof.Machine.execExtractHumidity s
  | .rangeCheck => Sys2Proof.Machine.execRangeCheck s

end Sys2Proof.Machine
end

