-- ==== Sys2Proof/Machine/Fetch.lean ====
section
/-! DEFINITION. What a step does next: the inputs it takes and the instructions that PHASE or the accepted command word selects
(spec/40_decoder.md R112; spec/10_state.md R27, R35; spec/70_reset_and_hazards.md R230, R231). -/

namespace Sys2Proof.Machine

/-- What one step does. -/
inductive Action where
  /-- In IDLE with no command accepted the engine does not step (R112). -/
  | stay
  /-- One instruction. -/
  | run (i : Instr)
  /-- Two instructions that share one micro-step (row T16 of R112). -/
  | runBoth (i j : Instr)
  /-- The completion of a command (rows T19, T20). -/
  | complete
  /-- The reset input (R230). -/
  | reset
deriving DecidableEq, Repr

/-- What PHASE selects (spec/opcode_table.json, `selected_by`; R27, R112). -/
def select : Phase → Action
  | .idle => .stay
  | .stDir => .run .start
  | .stLow => .run .start
  | .stHold => .run .start
  | .stHigh => .run .start
  | .stRelHold => .run .start
  | .stRelease => .run .start
  | .rd .w1 => .run .w1
  | .tk .w1 => .run .w1
  | .rd .w2 => .run .w2
  | .tk .w2 => .run .w2
  | .rd .w3 => .run .w3
  | .tk .w3 => .run .w3
  | .rd .w4 => .run .w4
  | .tk .w4 => .run .w4
  | .bDly => .run .rdbit
  | .bSmp => .run .rdbit
  | .rd .w5 => .run .w5
  | .tk .w5 => .run .w5
  | .check => .run .checksum
  | .extract => .runBoth .extractTemperature .extractHumidity
  | .range => .run .rangeCheck
  | .done => .complete
  | .fail => .complete

/-- What the step does, given what the host presents: reset comes first; a command is accepted in
IDLE and ignored while BUSY; otherwise PHASE decides (R35, R112, R230). -/
def action (s : State) : Action :=
  match s.host with
  | .reset :: _ => .reset
  | .command w _ :: _ => if busy s then select s.phase else .run (decodeCmd w)
  | .pass :: _ => select s.phase
  | [] => select s.phase

/-- The inputs a step takes: the pulse of `rsp_valid` is over (R36), a step of `pass` or `reset` is
used up, and an accepted command is taken with its `cap` (R26, R35). -/
def takeInputs (s : State) : State :=
  match s.host with
  | .reset :: rest => { s with rsp := none, host := rest }
  | .command _ c :: rest => if busy s then { s with rsp := none } else { s with rsp := none, host := rest, cap := c }
  | .pass :: rest => { s with rsp := none, host := rest }
  | [] => { s with rsp := none }

/-- A command word presented next, with all capabilities bound unless written otherwise (R93; log 18). -/
def presentCommand (w : BitVec 3) (s : State) : State :=
  { s with phase := .idle, host := .command w 0b11111#5 :: s.host }

/-- A received frame about to be checked, nothing presented by the host meanwhile (R125; log 18). -/
def presentFrame (f : BitVec 40) (s : State) : State :=
  { s with phase := .check, raw := Raw.ofFrame f, host := .pass :: s.host }

end Sys2Proof.Machine
end

