-- ==== Sys2Proof/Machine/Step.lean ====
section
/-! DEFINITION. One micro-step of the machine (spec/40_decoder.md R112), and the placing of a word for it. -/

namespace Sys2Proof.Machine

/-- One micro-step: the inputs are taken, then what the command word or PHASE selects is run. -/
def step (s : State) : Host.Outcome State Fault Refusal :=
  match action s with
  | .stay => .next (takeInputs s)
  | .run i => exec i (takeInputs s)
  | .runBoth i j => andThen (exec i (takeInputs s)) (exec j)
  | .complete => .next (deliver (takeInputs s))
  | .reset => .next (resetBy (takeInputs s))

/-- A word of the table placed where the next step takes it: a command word (up to 8 bits) at the
command port, a frame (up to 40 bits) in RAW (log 18). Bits that are no instruction place nothing. -/
def State.withFetchWord (s : State) (nbits w : Nat) : State :=
  if nbits ≤ 8 then (if w < 8 then presentCommand (BitVec.ofNat 3 w) s else s)
  else if nbits ≤ 40 ∧ w < 2 ^ 40 then presentFrame (BitVec.ofNat 40 w) s
  else s

end Sys2Proof.Machine
end

