-- ==== Sys2Proof/Safety.lean ====
section
/-! DEFINITION. What the claims are stated in: the invariant of the engine, runs of steps, counts of line operations, the order of
binary32 values (spec/10_state.md R29, R31, R40; spec/40_decoder.md R116, R130, R132; spec/41_extractor.md R157, R158). -/

namespace Sys2Proof.Machine

/-- `n` micro-steps of the machine, stopping at the first stop. -/
def runs : Nat → State → Result
  | 0, s => .next s
  | n + 1, s => andThen (step s) (runs n)

/-- The engine drives the line: after `Dir(1)` and up to `Dir(0)` (R64, R113). -/
def driving : Phase → Bool
  | .stLow => true
  | .stHold => true
  | .stHigh => true
  | .stRelHold => true
  | .stRelease => true
  | _ => false

/-- The engine's output level is low: after `Wr(0)` and up to `Wr(1)` (R113). -/
def drivenLow : Phase → Bool
  | .stHold => true
  | .stHigh => true
  | _ => false

/-- A transaction or its evaluation is under way (R27). -/
def inTransaction : Phase → Bool
  | .idle => false
  | .done => false
  | .fail => false
  | _ => true

/-- The invariant of the engine: it holds at reset and every step keeps it. -/
structure State.Inv (s : State) : Prop where
  /-- The engine drives the line exactly inside START (R31, R132). -/
  oe : s.lineOE = driving s.phase
  /-- Its output level is low exactly between `Wr(0)` and `Wr(1)` (R31, R132). -/
  out : s.lineOut = !drivenLow s.phase
  /-- No transaction without a successful INIT (R25, R172). -/
  ready : inTransaction s.phase = true → s.inited = true
  /-- Inside a wait ELAPSED has not exceeded the ceiling (R29, R116). -/
  within : ∀ k, s.phase = .rd k ∨ s.phase = .tk k → s.elapsed ≤ ceiling s.params k
  /-- DONE is entered with ST_OK (R27). -/
  doneOk : s.phase = .done → s.status = .ok
  /-- FAIL is entered with another status (R27). -/
  failed : s.phase = .fail → s.status ≠ .ok
  /-- The extractor runs only after the frame check, for READ_SAMPLE (R171). -/
  summed : s.phase = .extract ∨ s.phase = .range → sumOk s.raw = true ∧ s.op = .readSample
  /-- At RANGE both values have been extracted from the frame (R40, R171). -/
  extracted : s.phase = .range →
    s.temp = temperature s.variant s.raw.b2 s.raw.b3 ∧ s.hum = humidity s.variant s.raw.b0 s.raw.b1
  /-- A frame is delivered only if its checksum is right (R36, R126). -/
  dueRaw : s.phase = .done → s.due = .raw → sumOk s.raw = true
  /-- A pair is delivered only if the whole pipeline succeeded on it (R23, R36, R159). -/
  duePair : s.phase = .done → s.due = .pair →
    sumOk s.raw = true ∧
    s.temp = temperature s.variant s.raw.b2 s.raw.b3 ∧ s.hum = humidity s.variant s.raw.b0 s.raw.b1 ∧
    inRange s.params s.variant (tX10 s.variant s.raw.b2 s.raw.b3) (hX10 s.variant s.raw.b0 s.raw.b1) = true
  /-- The response is a pulse of the step into IDLE (R36). -/
  pulse : s.rsp ≠ none → s.phase = .idle

/-- The trace of `n` unsuccessful polls of level `l`, newest first (R116). -/
def polls (l : Level) (tick n : Nat) : List LineOp :=
  (List.replicate n [LineOp.dlyUs tick, LineOp.rd l]).flatten

/-- The answers to the reads of one data bit: `m` polls of the low marker, the rise, the sample,
`w` polls while still high, the fall (R123). -/
def bitAnswers (m w : Nat) (b : Level) : List Level :=
  List.replicate m false ++ true :: b :: (List.replicate w true ++ [false])

/-- The answers to the reads of a response: `n1`, `n2`, `n3` polls and the three edges (R115). -/
def responseAnswers (n1 n2 n3 : Nat) : List Level :=
  List.replicate n1 true ++ false :: (List.replicate n2 false ++ true :: (List.replicate n3 true ++ [false]))

/-- The answers to the reads of a frame: bit `n` received is `FRAME[39 - n]` (R52, R125). -/
def frameAnswers (f : BitVec 40) (m w : Nat → Nat) : List Level :=
  (List.range 40).flatMap fun n => bitAnswers (m n) (w n) (f.getLsbD (39 - n))

/-- How many `Rd` a trace holds (R130). -/
def readCount (t : List LineOp) : Nat :=
  t.countP fun o => match o with
    | .rd _ => true
    | _ => false

/-- How many delay operations a trace holds (R130). -/
def delayCount (t : List LineOp) : Nat :=
  t.countP fun o => match o with
    | .dlyMs _ => true
    | .dlyUs _ => true
    | _ => false

/-- The most reads a wait performs: `floor(C_k / TICK_US) + 1` (R116, R130). -/
def maxReads (p : Params) (k : WaitId) : Nat := ceiling p k / p.tickUs + 1

/-- How many bits of the frame stand before the one at `(BYTE_IDX, BIT_IDX)` (R52, R124). -/
def bitNumber (s : State) : Nat := 8 * s.byteIdx.val + (7 - s.bitIdx.val)

/-- The value of a finite binary32 pattern, as a multiple of `2^-150`. -/
def value150 (x : Single) : Int :=
  if x.getLsbD 31 then -(magnitude150 x : Int) else (magnitude150 x : Int)

/-- A pattern is finite: its exponent is not all ones. -/
def isFinite (x : Single) : Bool := x.extractLsb' 23 8 != 0xFF#8

/-- `f32(t / 10)` for a signed number of tenths (R158). -/
def imageOfTenths (t : Int) : Single :=
  if t < 0 then negate (f32 t.natAbs 10) else f32 t.natAbs 10

/-- The response a complete frame earns (R128, R170, R173, R174, R207): the frame check first, then for
READ_SAMPLE the range. -/
def transactionResponse (p : Params) (v : Variant) (o : ReadOp) (r : Raw) : Response :=
  if sumOk r then
    match o with
    | .readRaw => ⟨.ok, .raw r.frame⟩
    | .readSample =>
      if inRange p v (tX10 v r.b2 r.b3) (hX10 v r.b0 r.b1) then
        ⟨.ok, .pair (temperature v r.b2 r.b3) (humidity v r.b0 r.b1)⟩
      else ⟨.fail, .nothing⟩
  else ⟨.checksum, .nothing⟩

/-- An instruction is the wait `k`, with level `l`, ceiling `c` and the exit writes `out` (R112, R116):
what each of its four rows T7 to T10 does. -/
def IsWait (i : Instr) (k : WaitId) (l : Level) (c : Params → Nat) (out : State → State) : Prop :=
  ∀ s : State,
    (s.phase = .rd k → s.lineOE = false → s.nextLevel = l →
      exec i s = .next { s.afterRead with phase := .tk k }) ∧
    (s.phase = .rd k → s.lineOE = false → s.nextLevel ≠ l → exec i s = .next (out s.afterRead)) ∧
    (s.phase = .tk k → s.elapsed + s.params.tickUs ≤ c s.params →
      exec i s = .next { s with
        trace := .dlyUs s.params.tickUs :: s.trace, elapsed := s.elapsed + s.params.tickUs, phase := .rd k }) ∧
    (s.phase = .tk k → c s.params < s.elapsed + s.params.tickUs →
      exec i s = .next { s with
        trace := .dlyUs s.params.tickUs :: s.trace, elapsed := s.elapsed + s.params.tickUs,
        status := .timeout, phase := .fail })

/-- The command accepted in this step, if one is (R35). -/
def acceptedWord (s : State) : Option (BitVec 3) :=
  if busy s then none
  else
    match s.host with
    | .command w _ :: _ => some w
    | _ => none

/-- The table of R112, row by row, as a relation: from the state with its inputs taken, under the
command word accepted in this step, to the next state. What a row's line operation needs of the line
(R57, R58) is no condition of the row: the invariant gives it. -/
inductive TableRow : Option (BitVec 3) → State → State → Prop where
  /-- In IDLE with no command accepted the engine does not step: the model's row, not R112's (log 20). -/
  | stay {s : State} : s.phase = .idle → TableRow none s s
  | t0a {w : BitVec 3} {s : State} : s.phase = .idle → cmdOp w = 0b01#2 → s.cap = 0b11111#5 →
      TableRow (some w) s { s with
        trace := [], variant := variantOfBit (cmdV w), inited := true, status := .ok, due := .nothing, phase := .done }
  | t0b {w : BitVec 3} {s : State} : s.phase = .idle → cmdOp w = 0b01#2 → s.cap ≠ 0b11111#5 →
      TableRow (some w) s { s with trace := [], inited := false, status := .initErr, phase := .fail }
  | t0cSample {w : BitVec 3} {s : State} : s.phase = .idle → cmdOp w = 0b10#2 → s.inited = true →
      TableRow (some w) s { s with trace := [], op := .readSample, phase := .stDir }
  | t0cRaw {w : BitVec 3} {s : State} : s.phase = .idle → cmdOp w = 0b11#2 → s.inited = true →
      TableRow (some w) s { s with trace := [], op := .readRaw, phase := .stDir }
  | t0d {w : BitVec 3} {s : State} : s.phase = .idle → (cmdOp w = 0b10#2 ∨ cmdOp w = 0b11#2) → s.inited = false →
      TableRow (some w) s { s with trace := [], status := .fail, phase := .fail }
  | t0e {w : BitVec 3} {s : State} : s.phase = .idle → cmdOp w = 0b00#2 →
      TableRow (some w) s { s with trace := [], status := .fail, phase := .fail }
  | t1 {s : State} : s.phase = .stDir →
      TableRow none s { s with lineOE := true, trace := .dir true :: s.trace, phase := .stLow }
  | t2 {s : State} : s.phase = .stLow →
      TableRow none s { s with lineOut := false, trace := .wr false :: s.trace, phase := .stHold }
  | t3 {s : State} : s.phase = .stHold →
      TableRow none s { s with trace := .dlyMs (startLowMs s.params s.variant) :: s.trace, phase := .stHigh }
  | t4 {s : State} : s.phase = .stHigh →
      TableRow none s { s with lineOut := true, trace := .wr true :: s.trace, phase := .stRelHold }
  | t5 {s : State} : s.phase = .stRelHold →
      TableRow none s { s with trace := .dlyUs s.params.tStartHighUs :: s.trace, phase := .stRelease }
  | t6 {s : State} : s.phase = .stRelease →
      TableRow none s { s with lineOE := false, trace := .dir false :: s.trace, elapsed := 0, phase := .rd .w1 }
  | t7 {k : WaitId} {s : State} : s.phase = .rd k → s.nextLevel = waitLevel k →
      TableRow none s { s.afterRead with phase := .tk k }
  | t8w1 {s : State} : s.phase = .rd .w1 → s.nextLevel = false →
      TableRow none s { s.afterRead with elapsed := 0, phase := .rd .w2 }
  | t8w2 {s : State} : s.phase = .rd .w2 → s.nextLevel = true →
      TableRow none s { s.afterRead with elapsed := 0, phase := .rd .w3 }
  | t8w3 {s : State} : s.phase = .rd .w3 → s.nextLevel = false →
      TableRow none s { s.afterRead with byteIdx := 0, bitIdx := 7, elapsed := 0, phase := .rd .w4 }
  | t8w4 {s : State} : s.phase = .rd .w4 → s.nextLevel = true →
      TableRow none s { s.afterRead with phase := .bDly }
  | t8w5Bit {s : State} : s.phase = .rd .w5 → s.nextLevel = false → s.bitIdx ≠ 0 →
      TableRow none s { s.afterRead with bitIdx := s.bitIdx - 1, elapsed := 0, phase := .rd .w4 }
  | t8w5Byte {s : State} : s.phase = .rd .w5 → s.nextLevel = false → s.bitIdx = 0 → s.byteIdx ≠ 4 →
      TableRow none s { s.afterRead with byteIdx := s.byteIdx + 1, bitIdx := 7, elapsed := 0, phase := .rd .w4 }
  | t8w5Last {s : State} : s.phase = .rd .w5 → s.nextLevel = false → s.bitIdx = 0 → s.byteIdx = 4 →
      TableRow none s { s.afterRead with phase := .check }
  | t9 {k : WaitId} {s : State} : s.phase = .tk k → s.elapsed + s.params.tickUs ≤ ceiling s.params k →
      TableRow none s { s with
        trace := .dlyUs s.params.tickUs :: s.trace, elapsed := s.elapsed + s.params.tickUs, phase := .rd k }
  | t10 {k : WaitId} {s : State} : s.phase = .tk k → ceiling s.params k < s.elapsed + s.params.tickUs →
      TableRow none s { s with
        trace := .dlyUs s.params.tickUs :: s.trace, elapsed := s.elapsed + s.params.tickUs,
        status := .timeout, phase := .fail }
  | t11 {s : State} : s.phase = .bDly →
      TableRow none s { s with trace := .dlyUs s.params.tSampleUs :: s.trace, phase := .bSmp }
  | t12 {s : State} : s.phase = .bSmp →
      TableRow none s { s.afterRead with
        sbit := s.nextLevel, raw := s.raw.putBit s.byteIdx s.bitIdx s.nextLevel, elapsed := 0, phase := .rd .w5 }
  | t13 {s : State} : s.phase = .check →
      (s.raw.b0.toNat + s.raw.b1.toNat + s.raw.b2.toNat + s.raw.b3.toNat) % 256 = s.raw.b4.toNat → s.op = .readRaw →
      TableRow none s { s with status := .ok, due := .raw, phase := .done }
  | t14 {s : State} : s.phase = .check →
      (s.raw.b0.toNat + s.raw.b1.toNat + s.raw.b2.toNat + s.raw.b3.toNat) % 256 = s.raw.b4.toNat → s.op = .readSample →
      TableRow none s { s with phase := .extract }
  | t15 {s : State} : s.phase = .check →
      (s.raw.b0.toNat + s.raw.b1.toNat + s.raw.b2.toNat + s.raw.b3.toNat) % 256 ≠ s.raw.b4.toNat →
      TableRow none s { s with status := .checksum, phase := .fail }
  | t16 {s : State} : s.phase = .extract →
      TableRow none s { s with
        temp := temperature s.variant s.raw.b2 s.raw.b3, hum := humidity s.variant s.raw.b0 s.raw.b1, phase := .range }
  | t17 {s : State} : s.phase = .range →
      (tMin s.params s.variant ≤ tX10 s.variant s.raw.b2 s.raw.b3 ∧
        tX10 s.variant s.raw.b2 s.raw.b3 ≤ tMax s.params s.variant) →
      (hMin s.params s.variant ≤ hX10 s.variant s.raw.b0 s.raw.b1 ∧
        hX10 s.variant s.raw.b0 s.raw.b1 ≤ hMax s.params s.variant) →
      TableRow none s { s with status := .ok, due := .pair, phase := .done }
  | t18 {s : State} : s.phase = .range →
      ¬ ((tMin s.params s.variant ≤ tX10 s.variant s.raw.b2 s.raw.b3 ∧
          tX10 s.variant s.raw.b2 s.raw.b3 ≤ tMax s.params s.variant) ∧
         (hMin s.params s.variant ≤ hX10 s.variant s.raw.b0 s.raw.b1 ∧
          hX10 s.variant s.raw.b0 s.raw.b1 ≤ hMax s.params s.variant)) →
      TableRow none s { s with status := .fail, phase := .fail }
  | t19 {s : State} : s.phase = .done →
      TableRow none s { s with rsp := some ⟨s.status, dueData s⟩, phase := .idle }
  | t20 {s : State} : s.phase = .fail →
      TableRow none s { s with rsp := some ⟨s.status, .nothing⟩, phase := .idle }

end Sys2Proof.Machine
end

