-- ==== Sys2Proof/Certificates/Slice0/Obligations.lean ====
section
/-! DEFINITION. The statements for the provers, from the numbered rules of spec/. -/

open Sys2Proof Sys2Proof.Machine

/-! ### Encodings -/

/-- Every instruction that has a word is what its bytes decode to; the frame's two field layouts are
read back under their variant (30_encoding.md sections 1, 3). How a word lies in bytes is the model's
choice (log 19). -/
def Obligations.EncodeThenDecodeGivesTheInstruction : Prop :=
  ∀ i : Instr, i.wellFormed = true → ∃ bs, encodeBytes i = some bs ∧ decodeBytesAs i.view bs = .ok i

/-- Whatever decodes is encoded to the very same bytes (30_encoding.md sections 1, 3). How a word lies
in bytes, and with it that a command byte with a higher bit set is refused, is the model's choice (log
19). -/
def Obligations.DecodeThenEncodeGivesTheBytes : Prop :=
  ∀ (view : FrameView) (bs : List Byte) (i : Instr),
    decodeBytesAs view bs = .ok i → encodeBytes i = some bs ∧ i.wellFormed = true

/-- R81: all eight command words decode, each to its operation. -/
def Obligations.AllEightCommandWordsDecode : Prop :=
  decodeCmd 0b001#3 = .init .a ∧ decodeCmd 0b101#3 = .init .b ∧
  decodeCmd 0b010#3 = .readSample false ∧ decodeCmd 0b110#3 = .readSample true ∧
  decodeCmd 0b011#3 = .readRaw false ∧ decodeCmd 0b111#3 = .readRaw true ∧
  decodeCmd 0b000#3 = .rsvd false ∧ decodeCmd 0b100#3 = .rsvd true

/-- Words written out from the encodings, one for each format, and bytes that are refused
(95_test_vectors.md V-CMD, V-FR; log 19 for the bytes). -/
def Obligations.WrittenWordsDecode : Prop :=
  decodeTableWord 3 0b101 = some (.init .b) ∧ decodeTableWord 8 0b010 = some (.readSample false) ∧
  decodeTableWord 40 0x2D001A0047 = some (.frame40 0x2D#8 0x00#8 0x1A#8 0x00#8 0x47#8) ∧
  decodeFrameAs .a 0x2D001A0047#40 = .frame40A 45#8 0#8 26#8 0#8 71#8 ∧
  decodeFrameAs .b 0x01F48065DA#40 = .frame40B 500#16 true 101#15 0xDA#8 ∧
  decodeTableWord 8 0b1000 = none ∧ decodeTableWord 16 0b010 ≠ some (.readSample false) ∧
  decodeBytes [] = .error .wrongLength ∧ decodeBytes [0x08#8] = .error .bitsAboveCommand

/-- The five registers as one frame, and the fields each layout reads from it: bytes, Variant A's
whole-byte fields, Variant B's 16-bit humidity, sign flag and 15-bit magnitude
(30_encoding.md section 3; 20_memory.md section 2). -/
def Obligations.FrameFieldsComeFromTheirBytes : Prop :=
  ∀ r : Raw,
    decodeFrame r.frame = .frame40 r.b0 r.b1 r.b2 r.b3 r.b4 ∧
    decodeFrameAs .a r.frame = .frame40A r.b0 r.b1 r.b2 r.b3 r.b4 ∧
    ∃ (h : BitVec 16) (m : BitVec 15),
      decodeFrameAs .b r.frame = .frame40B h (r.b2.getLsbD 7) m r.b4 ∧
      h.toNat = r.b0.toNat * 256 + r.b1.toNat ∧ m.toNat = r.b2.toNat % 128 * 256 + r.b3.toNat

/-- The numbers of the status codes; no other code is ever produced (30_encoding.md section 5). -/
def Obligations.StatusCodesAreFive : Prop :=
  Status.ok.code = 0#3 ∧ Status.fail.code = 1#3 ∧ Status.timeout.code = 2#3 ∧ Status.checksum.code = 3#3 ∧
  Status.initErr.code = 4#3 ∧ ∀ st : Status, st.code ≠ 5#3 ∧ st.code ≠ 6#3 ∧ st.code ≠ 7#3

/-! ### The host's commands -/

/-- R185: INIT with all five capabilities bound. -/
def Obligations.InitSucceedsWithAllCapabilities : Prop :=
  ∀ (v : Variant) (s : State), s.phase = .idle → s.cap = 0b11111#5 →
    exec (.init v) s = .next { s with
      trace := [], variant := v, inited := true, status := .ok, due := .nothing, phase := .done }

/-- R186: INIT with any capability missing, whichever it is. -/
def Obligations.InitFailsWithoutACapability : Prop :=
  ∀ (v : Variant) (s : State) (k : Nat), k < 5 → s.phase = .idle → s.cap.getLsbD k = false →
    exec (.init v) s = .next { s with trace := [], inited := false, status := .initErr, phase := .fail }

/-- R83, R188: the reserved command reports the generic failure and does nothing else. -/
def Obligations.ReservedCommandFails : Prop :=
  ∀ (v : Bool) (s : State), s.phase = .idle →
    exec (.rsvd v) s = .next { s with trace := [], status := .fail, phase := .fail }

/-- Rows T0c: READ_SAMPLE and READ_RAW on an initialised engine start a transaction; bit `v` does not
matter (40_decoder.md section 2; 30_encoding.md section 1). -/
def Obligations.ReadCommandStartsATransaction : Prop :=
  ∀ (v : Bool) (s : State), s.phase = .idle → s.inited = true →
    exec (.readSample v) s = .next { s with trace := [], op := .readSample, phase := .stDir } ∧
    exec (.readRaw v) s = .next { s with trace := [], op := .readRaw, phase := .stDir }

/-- R172: a READ command before a successful INIT reports the generic failure, performs no line
operation and writes no other register. -/
def Obligations.ReadBeforeInitFails : Prop :=
  ∀ (v : Bool) (s : State), s.phase = .idle → s.inited = false →
    exec (.readSample v) s = .next { s with trace := [], status := .fail, phase := .fail } ∧
    exec (.readRaw v) s = .next { s with trace := [], status := .fail, phase := .fail }

/-- While BUSY a command has no effect: as an instruction it changes nothing (the model's choice, log
15), and at the port it and its `cap` stay where they are while the step does what PHASE selects
(10_state.md section 7). -/
def Obligations.CommandWhileBusyIsIgnored : Prop :=
  (∀ (i : Instr) (s : State), i.format = .cmd3 → s.phase ≠ .idle → exec i s = .next s) ∧
  ∀ (s : State) (w : BitVec 3) (c : BitVec 5) (rest : List HostEvent),
    s.phase ≠ .idle → s.host = .command w c :: rest →
    action s = select s.phase ∧ takeInputs s = { s with rsp := none }

/-! ### The step -/

/-- In IDLE a presented command word is decoded and run, with its `cap` at the input; a word placed
by `withFetchWord`, command or frame, is what the next step runs (40_decoder.md section 2; log 18). -/
def Obligations.StepRunsTheFetchedWord : Prop :=
  (∀ (s : State) (w : BitVec 3) (c : BitVec 5) (rest : List HostEvent),
    s.phase = .idle → s.host = .command w c :: rest →
    step s = exec (decodeCmd w) { s with rsp := none, host := rest, cap := c }) ∧
  (∀ (s : State) (nbits w : Nat), 0 < nbits → nbits ≤ 8 → w < 8 →
    ∃ i, decodeTableWord nbits w = some i ∧
      step (s.withFetchWord nbits w) = exec i { s with phase := .idle, rsp := none, cap := 0b11111#5 }) ∧
  ∀ (s : State) (w : Nat), w < 2 ^ 40 →
    ∃ i, decodeTableWord 40 w = some i ∧
      step (s.withFetchWord 40 w) = exec i { s with phase := .check, rsp := none }

/-- Where no command is accepted and no reset is asserted, a step takes its inputs and runs what
PHASE selects: every row of the opcode table that names that PHASE, the frame rows decoded from RAW
included; IDLE stays; DONE and FAIL complete (10_state.md section 4; 30_encoding.md section 7). The
model's: the frame rows as instructions (log 10), the two halves of EXTRACT (log 11), the idle step
(log 20). -/
def Obligations.StepRunsWhatPhaseSelects : Prop :=
  ∀ s : State, (∀ rest, s.host ≠ .reset :: rest) → (s.phase = .idle → ∀ w c rest, s.host ≠ .command w c :: rest) →
    (s.phase = .idle → step s = .next (takeInputs s)) ∧
    (s.phase ∈ [.stDir, .stLow, .stHold, .stHigh, .stRelHold, .stRelease] → step s = exec .start (takeInputs s)) ∧
    (∀ k, s.phase = .rd k ∨ s.phase = .tk k → step s = exec (.wait k) (takeInputs s)) ∧
    (s.phase = .rd .w1 ∨ s.phase = .tk .w1 → step s = exec .w1 (takeInputs s)) ∧
    (s.phase = .rd .w2 ∨ s.phase = .tk .w2 → step s = exec .w2 (takeInputs s)) ∧
    (s.phase = .rd .w3 ∨ s.phase = .tk .w3 → step s = exec .w3 (takeInputs s)) ∧
    (s.phase = .rd .w4 ∨ s.phase = .tk .w4 → step s = exec .w4 (takeInputs s)) ∧
    (s.phase = .rd .w5 ∨ s.phase = .tk .w5 → step s = exec .w5 (takeInputs s)) ∧
    (s.phase ∈ [.rd .w1, .tk .w1, .rd .w2, .tk .w2, .rd .w3, .tk .w3] → step s = exec .response (takeInputs s)) ∧
    (s.phase ∈ [.rd .w4, .tk .w4, .bDly, .bSmp, .rd .w5, .tk .w5] →
      step s = exec .rdbit (takeInputs s) ∧ step s = exec .rdframe (takeInputs s)) ∧
    (s.phase = .check →
      step s = exec .checksum (takeInputs s) ∧ step s = exec (decodeFrame s.raw.frame) (takeInputs s)) ∧
    (s.phase = .extract →
      step s = andThen (exec .extractTemperature (takeInputs s)) (exec .extractHumidity) ∧
      step s = exec (decodeFrameAs s.variant s.raw.frame) (takeInputs s)) ∧
    (s.phase = .range → step s = exec .rangeCheck (takeInputs s)) ∧
    (s.phase = .done ∨ s.phase = .fail → step s = .next (deliver (takeInputs s)))

/-- Rows T19, T20: completion pulses the response with the status and exactly the defined data, and
goes to IDLE; nothing else changes, and no line operation is performed (10_state.md section 7;
60_exceptions.md sections 2, 4). -/
def Obligations.CompletionDeliversTheResponse : Prop :=
  ∀ s : State, s.host = [] →
    (s.phase = .fail → step s = .next { s with phase := .idle, rsp := some ⟨s.status, .nothing⟩ }) ∧
    (s.phase = .done → s.due = .nothing → step s = .next { s with phase := .idle, rsp := some ⟨s.status, .nothing⟩ }) ∧
    (s.phase = .done → s.due = .raw →
      step s = .next { s with phase := .idle, rsp := some ⟨s.status, .raw (s.raw.b0 ++ s.raw.b1 ++ s.raw.b2 ++ s.raw.b3 ++ s.raw.b4)⟩ }) ∧
    (s.phase = .done → s.due = .pair →
      step s = .next { s with phase := .idle, rsp := some ⟨s.status, .pair s.temp s.hum⟩ })

/-- R231, and the values 70_reset_and_hazards.md section 1 states: at the reset state, and after any step
with the reset input asserted, whatever the engine was doing, with the line released, no response
delivered and the trace where it was. -/
def Obligations.ResetLeavesTheStatedValues : Prop :=
  (State.reset.phase = .idle ∧ State.reset.inited = false ∧ State.reset.lineOE = false ∧
    State.reset.lineOut = true ∧ State.reset.status = .ok ∧ State.reset.rsp = none) ∧
  ∀ (s : State) (rest : List HostEvent), s.host = .reset :: rest →
    ∃ t, step s = .next t ∧ t.phase = .idle ∧ t.inited = false ∧ t.lineOE = false ∧ t.lineOut = true ∧
      t.status = .ok ∧ t.rsp = none ∧ t.trace = s.trace ∧ t.params = s.params ∧ t.host = rest ∧ t.lineIn = s.lineIn

/-! ### START -/

/-- Rows T1 to T6 of the table (40_decoder.md section 2): the six micro-steps of START;
a `Wr` on a released line is the fault log 13 names. -/
def Obligations.StartMicroSteps : Prop :=
  ∀ s : State,
    (s.phase = .stDir → exec .start s = .next { s with lineOE := true, trace := .dir true :: s.trace, phase := .stLow }) ∧
    (s.phase = .stLow → s.lineOE = true →
      exec .start s = .next { s with lineOut := false, trace := .wr false :: s.trace, phase := .stHold }) ∧
    (s.phase = .stHold → exec .start s =
      .next { s with trace := .dlyMs (startLowMs s.params s.variant) :: s.trace, phase := .stHigh }) ∧
    (s.phase = .stHigh → s.lineOE = true →
      exec .start s = .next { s with lineOut := true, trace := .wr true :: s.trace, phase := .stRelHold }) ∧
    (s.phase = .stRelHold →
      exec .start s = .next { s with trace := .dlyUs s.params.tStartHighUs :: s.trace, phase := .stRelease }) ∧
    (s.phase = .stRelease → exec .start s = .next { s with
      lineOE := false, trace := .dir false :: s.trace, elapsed := 0, phase := .rd .w1 }) ∧
    (s.phase = .stLow ∨ s.phase = .stHigh → s.lineOE = false → exec .start s = .fault .writeWhileReleased)

/-- R113: START as a whole: its six line operations in order, the hold of the variant, both line
registers after it, and the time it takes; it cannot fail and reads nothing. -/
def Obligations.StartSendsTheStartSignal : Prop :=
  ∀ s : State, s.phase = .stDir → s.host = [] →
    ∃ t, runs 6 s = .next t ∧
      t = { s with
        rsp := none, lineOE := false, lineOut := true, elapsed := 0, phase := .rd .w1
        trace := [.dir false, .dlyUs s.params.tStartHighUs, .wr true, .dlyMs (startLowMs s.params s.variant),
          .wr false, .dir true] ++ s.trace } ∧
      now t.trace = now s.trace + 1000 * startLowMs s.params s.variant + s.params.tStartHighUs

/-! ### WAIT and RESPONSE -/

/-- R117: W1 = WAIT(1, CEIL_ACK_US), entered after `Dir(0)`, then W2; so do WAIT for W1 and RESPONSE
there. -/
def Obligations.FirstEdgeWait : Prop :=
  ∀ i ∈ [Instr.w1, .wait .w1, .response],
    IsWait i .w1 true (fun p => p.ceilAckUs) (fun s => { s with elapsed := 0, phase := .rd .w2 }) ∧
      ∀ s : State, s.phase = .stRelease → ∃ t, exec .start s = .next t ∧ t.phase = .rd .w1 ∧ t.elapsed = 0

/-- R118: W2 = WAIT(0, CEIL_RESP_US), then W3; so do WAIT for W2 and RESPONSE there. -/
def Obligations.ResponseLowWait : Prop :=
  ∀ i ∈ [Instr.w2, .wait .w2, .response],
    IsWait i .w2 false (fun p => p.ceilRespUs) fun s => { s with elapsed := 0, phase := .rd .w3 }

/-- R119: W3 = WAIT(1, CEIL_RESP_US), then W4 of the first bit; so do WAIT for W3 and RESPONSE there. -/
def Obligations.ResponseHighWait : Prop :=
  ∀ i ∈ [Instr.w3, .wait .w3, .response],
    IsWait i .w3 true (fun p => p.ceilRespUs) fun s =>
      { s with byteIdx := 0, bitIdx := 7, elapsed := 0, phase := .rd .w4 }

/-- R120: W4 = WAIT(0, CEIL_BIT_LOW_US), then the sample delay; so do WAIT for W4, RDBIT and RDFRAME there. -/
def Obligations.BitMarkerWait : Prop :=
  ∀ i ∈ [Instr.w4, .wait .w4, .rdbit, .rdframe],
    IsWait i .w4 false (fun p => p.ceilBitLowUs) fun s => { s with phase := .bDly }

/-- R121: W5 = WAIT(1, CEIL_BIT_HIGH_US), after every sample, the last included, then the index
advance; so do WAIT for W5, RDBIT and RDFRAME there. -/
def Obligations.ReturnToLowWait : Prop :=
  ∀ i ∈ [Instr.w5, .wait .w5, .rdbit, .rdframe],
    (∀ s : State, s.phase = .bSmp → s.lineOE = false →
      ∃ t, exec .rdbit s = .next t ∧ t.phase = .rd .w5 ∧ t.elapsed = 0) ∧
    IsWait i .w5 true (fun p => p.ceilBitHighUs) fun s =>
      if s.bitIdx ≠ 0 then { s with bitIdx := s.bitIdx - 1, elapsed := 0, phase := .rd .w4 }
      else if s.byteIdx ≠ 4 then { s with byteIdx := s.byteIdx + 1, bitIdx := 7, elapsed := 0, phase := .rd .w4 }
      else { s with phase := .check }

/-- A read while the engine drives the line is the fault log 13 names, in every wait and at the
sample (20_memory.md section 3). -/
def Obligations.ReadWhileDrivingFaults : Prop :=
  ∀ s : State, s.lineOE = true →
    (∀ k, s.phase = .rd k → exec (.wait k) s = .fault .readWhileDriving) ∧
    (s.phase = .bSmp → exec .rdbit s = .fault .readWhileDriving)

/-- R116: the polling wait. ELAPSED is 0 at its entry, whichever step enters it. From there, with `n`
unsuccessful polls within the ceiling, the one at `ELAPSED = C` included, and then the change, it
returns after `n + 1` reads and `n` delays; with `floor(C / TICK_US) + 1` unsuccessful polls it raises
`Timeout` after as many delays. -/
def Obligations.PollingWaitReturnsOrTimesOut : Prop :=
  (∀ (s t : State) (k : WaitId), step s = .next t → t.phase = .rd k → s.phase = .tk k ∨ t.elapsed = 0) ∧
  ∀ (k : WaitId) (s : State) (rest : List Level),
    s.phase = .rd k → s.host = [] → s.lineOE = false → s.elapsed = 0 → 1 ≤ s.params.tickUs →
    (∀ n, n * s.params.tickUs ≤ ceiling s.params k →
      s.lineIn = List.replicate n (waitLevel k) ++ (!waitLevel k) :: rest →
      runs (2 * n + 1) s = .next (waitExit k { s with
        rsp := none, lineIn := rest, reads := s.reads + (n + 1), elapsed := n * s.params.tickUs
        trace := .rd (!waitLevel k) :: (polls (waitLevel k) s.params.tickUs n ++ s.trace) })) ∧
    (s.lineIn = List.replicate (maxReads s.params k) (waitLevel k) ++ rest →
      runs (2 * maxReads s.params k) s = .next { s with
        rsp := none, lineIn := rest, reads := s.reads + maxReads s.params k
        elapsed := maxReads s.params k * s.params.tickUs
        trace := polls (waitLevel k) s.params.tickUs (maxReads s.params k) ++ s.trace
        status := .timeout, phase := .fail })

/-- The model's choice (log 9): a micro-operation run from a PHASE that does not select it starts at
its first micro-step: START drives the line, a wait sets ELAPSED to 0 and reads, RESPONSE enters W1,
RDBIT W4 of the current bit, RDFRAME W4 of the first bit. -/
def Obligations.MicroOperationsStartAtTheirFirstMicroStep : Prop :=
  ∀ s : State,
    (s.phase ∉ [Phase.stDir, .stLow, .stHold, .stHigh, .stRelHold, .stRelease] →
      exec .start s = .next { s with lineOE := true, trace := .dir true :: s.trace, phase := .stLow }) ∧
    (∀ k, s.phase ∉ [Phase.rd k, .tk k] → exec (.wait k) s = exec (.wait k) { s with elapsed := 0, phase := .rd k }) ∧
    (s.phase ∉ [Phase.rd .w1, .tk .w1] → exec .w1 s = exec .w1 { s with elapsed := 0, phase := .rd .w1 }) ∧
    (s.phase ∉ [Phase.rd .w2, .tk .w2] → exec .w2 s = exec .w2 { s with elapsed := 0, phase := .rd .w2 }) ∧
    (s.phase ∉ [Phase.rd .w3, .tk .w3] → exec .w3 s = exec .w3 { s with elapsed := 0, phase := .rd .w3 }) ∧
    (s.phase ∉ [Phase.rd .w4, .tk .w4] → exec .w4 s = exec .w4 { s with elapsed := 0, phase := .rd .w4 }) ∧
    (s.phase ∉ [Phase.rd .w5, .tk .w5] → exec .w5 s = exec .w5 { s with elapsed := 0, phase := .rd .w5 }) ∧
    (s.phase ∉ [Phase.rd .w1, .tk .w1, .rd .w2, .tk .w2, .rd .w3, .tk .w3] →
      exec .response s = exec .w1 { s with elapsed := 0, phase := .rd .w1 }) ∧
    (s.phase ∉ [Phase.rd .w4, .tk .w4, .bDly, .bSmp, .rd .w5, .tk .w5] →
      exec .rdbit s = exec .w4 { s with elapsed := 0, phase := .rd .w4 } ∧
      exec .rdframe s = exec .w4 { s with byteIdx := 0, bitIdx := 7, elapsed := 0, phase := .rd .w4 })

/-- RESPONSE as a whole: three waits, W1, W2, W3, and no check of a minimum width (each of the three
may have no unsuccessful poll at all) (40_decoder.md section 5). -/
def Obligations.ResponseIsThreeWaits : Prop :=
  ∀ (s : State) (n1 n2 n3 : Nat) (rest : List Level),
    s.phase = .rd .w1 → s.host = [] → s.lineOE = false → s.elapsed = 0 →
    n1 * s.params.tickUs ≤ s.params.ceilAckUs → n2 * s.params.tickUs ≤ s.params.ceilRespUs →
    n3 * s.params.tickUs ≤ s.params.ceilRespUs →
    s.lineIn = responseAnswers n1 n2 n3 ++ rest →
    runs (2 * n1 + 1 + (2 * n2 + 1) + (2 * n3 + 1)) s = .next { s with
      rsp := none, lineIn := rest, reads := s.reads + (n1 + 1 + (n2 + 1) + (n3 + 1))
      byteIdx := 0, bitIdx := 7, elapsed := 0, phase := .rd .w4
      trace := .rd false :: (polls true s.params.tickUs n3 ++ .rd true :: (polls false s.params.tickUs n2 ++
        .rd false :: (polls true s.params.tickUs n1 ++ s.trace))) }

/-- A line that never changes yields `Timeout`: stuck high in W1, stuck low in W2 (40_decoder.md section
8, an inference the spec marks as its own). -/
def Obligations.DeadLineYieldsTimeout : Prop :=
  ∀ (s : State) (o : ReadOp) (v : Bool) (c : BitVec 5) (rest : List Level),
    s.phase = .idle → s.inited = true → s.host = [.command (cmdWord v o.code) c] → 1 ≤ s.params.tickUs →
    (s.lineIn = List.replicate (maxReads s.params .w1) true ++ rest →
      ∃ n t, runs n s = .next t ∧ t.phase = .idle ∧ t.rsp = some ⟨.timeout, .nothing⟩ ∧
        t.lineOE = false ∧ t.lineOut = true ∧ t.lineIn = rest ∧ readCount t.trace = maxReads s.params .w1) ∧
    (s.lineIn = List.replicate (1 + maxReads s.params .w2) false ++ rest →
      ∃ n t, runs n s = .next t ∧ t.phase = .idle ∧ t.rsp = some ⟨.timeout, .nothing⟩ ∧
        t.lineOE = false ∧ t.lineOut = true ∧ t.lineIn = rest ∧ readCount t.trace = 1 + maxReads s.params .w2)

/-! ### RDBIT and RDFRAME -/

/-- Rows T11, T12: the sample delay, and the one sample, stored in one bit of RAW; RDBIT and RDFRAME
alike (40_decoder.md section 2). -/
def Obligations.SampleMicroSteps : Prop :=
  ∀ i ∈ [Instr.rdbit, .rdframe], ∀ s : State,
    (s.phase = .bDly → exec i s = .next { s with trace := .dlyUs s.params.tSampleUs :: s.trace, phase := .bSmp }) ∧
    (s.phase = .bSmp → s.lineOE = false →
      ∃ t, exec i s = .next t ∧
        (∀ (j : Fin 5) (n : Nat), n < 8 → (t.raw.get j).getLsbD n =
          if j = s.byteIdx ∧ n = s.bitIdx.val then s.nextLevel else (s.raw.get j).getLsbD n) ∧
        t = { s.afterRead with sbit := s.nextLevel, raw := t.raw, elapsed := 0, phase := .rd .w5 })

/-- RDBIT as a whole: W4, the fixed delay, one sample that alone decides the bit, W5, then the index
advance (40_decoder.md section 6). -/
def Obligations.OneSampleDecidesTheBit : Prop :=
  ∀ (s : State) (m w : Nat) (b : Level) (rest : List Level),
    s.phase = .rd .w4 → s.host = [] → s.lineOE = false → s.elapsed = 0 →
    m * s.params.tickUs ≤ s.params.ceilBitLowUs → w * s.params.tickUs ≤ s.params.ceilBitHighUs →
    s.lineIn = bitAnswers m w b ++ rest →
    runs (2 * m + 1 + 2 + (2 * w + 1)) s = .next (advance { s with
      rsp := none, lineIn := rest, reads := s.reads + (m + 1 + 1 + (w + 1)), sbit := b
      raw := s.raw.putBit s.byteIdx s.bitIdx b, elapsed := w * s.params.tickUs, phase := .rd .w5
      trace := .rd false :: (polls true s.params.tickUs w ++ .rd b :: .dlyUs s.params.tSampleUs :: .rd true ::
        (polls false s.params.tickUs m ++ s.trace)) })

/-- R124: the index advance at the exit of W5, and the order of visits: the bit visited next is the
one after it, and after the last one, bit 0 of byte 4, PHASE goes to CHECK. -/
def Obligations.IndicesAdvanceThroughTheFrame : Prop :=
  ∀ i ∈ [Instr.w5, .wait .w5, .rdbit, .rdframe], ∀ s : State,
    s.phase = .rd .w5 → s.lineOE = false → s.nextLevel = false →
    (0 < s.bitIdx.val → exec i s = .next { s.afterRead with bitIdx := s.bitIdx - 1, elapsed := 0, phase := .rd .w4 }) ∧
    (s.bitIdx.val = 0 → s.byteIdx.val < 4 →
      exec i s = .next { s.afterRead with byteIdx := s.byteIdx + 1, bitIdx := 7, elapsed := 0, phase := .rd .w4 }) ∧
    (s.bitIdx.val = 0 → s.byteIdx.val = 4 → exec i s = .next { s.afterRead with phase := .check }) ∧
    (bitNumber s < 39 → ∃ t, exec i s = .next t ∧ t.phase = .rd .w4 ∧ bitNumber t = bitNumber s + 1) ∧
    (bitNumber s = 39 → ∃ t, exec i s = .next t ∧ t.phase = .check)

/-- R52: RDFRAME as a whole: forty bits, whatever their widths within the ceilings, leave the
frame they spell in RAW, first received bit first, and PHASE at CHECK. -/
def Obligations.FortyBitsAssembleTheFrame : Prop :=
  ∀ (s : State) (f : BitVec 40) (m w : Nat → Nat) (rest : List Level),
    s.phase = .rd .w4 → s.host = [] → s.lineOE = false → s.elapsed = 0 → s.byteIdx = 0 → s.bitIdx = 7 →
    (∀ j < 40, m j * s.params.tickUs ≤ s.params.ceilBitLowUs ∧ w j * s.params.tickUs ≤ s.params.ceilBitHighUs) →
    s.lineIn = frameAnswers f m w ++ rest →
    ∃ n t, runs n s = .next t ∧ t.phase = .check ∧ t.raw = Raw.ofFrame f ∧ t.lineIn = rest ∧
      t.params = s.params ∧ t.variant = s.variant ∧ t.inited = s.inited ∧ t.op = s.op ∧ t.status = s.status ∧
      t.lineOE = false ∧ t.lineOut = s.lineOut ∧ t.temp = s.temp ∧ t.hum = s.hum ∧ t.host = [] ∧ t.rsp = none

/-- Placing eight bits at 7 down to 0 and shifting them in one after the other give the same byte
(30_encoding.md section 4). -/
def Obligations.StoringBitsIsShiftingThemIn : Prop :=
  ∀ (x : Byte) (b : Fin 8 → Bool),
    (List.finRange 8).foldl (fun (y : Byte) k => withBit y (7 - k) (b k)) x =
      (List.finRange 8).foldl (fun (y : Byte) k => (y <<< 1) ||| (BitVec.ofBool (b k)).zeroExtend 8) 0#8

/-! ### CHECKSUM, extraction, RANGE_CHECK -/

/-- R126: CHECKSUM compares the sum of four bytes modulo 256 with the fifth; equal, READ_RAW
completes and READ_SAMPLE goes on to EXTRACT; unequal, `ChecksumError`. No line operation. -/
def Obligations.ChecksumDecides : Prop :=
  ∀ s : State,
    let sum := s.raw.b0.toNat + s.raw.b1.toNat + s.raw.b2.toNat + s.raw.b3.toNat
    (sum % 256 = s.raw.b4.toNat → s.op = .readRaw →
      exec .checksum s = .next { s with status := .ok, due := .raw, phase := .done }) ∧
    (sum % 256 = s.raw.b4.toNat → s.op = .readSample → exec .checksum s = .next { s with phase := .extract }) ∧
    (sum % 256 ≠ s.raw.b4.toNat → exec .checksum s = .next { s with status := .checksum, phase := .fail })

/-- FRAME40 run as an instruction (log 10): its five bytes stand in RAW, first received first, and are
judged by the frame check (30_encoding.md section 3). -/
def Obligations.FrameWordIsChecked : Prop :=
  ∀ (a b d e c : Byte) (s : State),
    let sum := a.toNat + b.toNat + d.toNat + e.toNat
    (sum % 256 = c.toNat → s.op = .readRaw → exec (.frame40 a b d e c) s =
      .next { s with raw := ⟨a, b, d, e, c⟩, status := .ok, due := .raw, phase := .done }) ∧
    (sum % 256 = c.toNat → s.op = .readSample → exec (.frame40 a b d e c) s =
      .next { s with raw := ⟨a, b, d, e, c⟩, phase := .extract }) ∧
    (sum % 256 ≠ c.toNat → exec (.frame40 a b d e c) s =
      .next { s with raw := ⟨a, b, d, e, c⟩, status := .checksum, phase := .fail })

/-- R150: EXTRACT_TEMPERATURE, both variants: `T_X10` and `TEMP`; every other register unchanged, but
that where PHASE goes is no part of R150. -/
def Obligations.ExtractTemperatureWritesTemp : Prop :=
  ∀ s : State,
    let x2 := s.raw.b2.toNat
    let m := x2 % 128 * 256 + s.raw.b3.toNat
    (s.variant = .a → (∃ p, exec .extractTemperature s = .next { s with temp := f32 x2 1, phase := p }) ∧
      tX10 .a s.raw.b2 s.raw.b3 = 10 * x2) ∧
    (s.variant = .b → x2 < 128 → (∃ p, exec .extractTemperature s = .next { s with temp := f32 m 10, phase := p }) ∧
      tX10 .b s.raw.b2 s.raw.b3 = m) ∧
    (s.variant = .b → 128 ≤ x2 → (∃ p, exec .extractTemperature s = .next { s with temp := negate (f32 m 10), phase := p }) ∧
      tX10 .b s.raw.b2 s.raw.b3 = -m)

/-- R151: EXTRACT_HUMIDITY, both variants: `H_X10` and `HUM`; every other register unchanged, but that
where PHASE goes is no part of R151. -/
def Obligations.ExtractHumidityWritesHum : Prop :=
  ∀ s : State,
    let x0 := s.raw.b0.toNat
    let h := x0 * 256 + s.raw.b1.toNat
    (s.variant = .a → (∃ p, exec .extractHumidity s = .next { s with hum := f32 x0 1, phase := p }) ∧
      hX10 .a s.raw.b0 s.raw.b1 = 10 * x0) ∧
    (s.variant = .b → (∃ p, exec .extractHumidity s = .next { s with hum := f32 h 10, phase := p }) ∧
      hX10 .b s.raw.b0 s.raw.b1 = h)

/-- FRAME40.A and FRAME40.B run as instructions (log 10): the fields stand in RAW where their layout
puts them, and both values are extracted from them (30_encoding.md section 3). -/
def Obligations.FrameFieldsAreExtracted : Prop :=
  (∀ (h x t y c : Byte) (s : State), exec (.frame40A h x t y c) s =
    .next { s with raw := ⟨h, x, t, y, c⟩, temp := f32 t.toNat 1, hum := f32 h.toNat 1, phase := .range }) ∧
  ∀ (h : BitVec 16) (sgn : Bool) (m : BitVec 15) (c : Byte) (s : State),
    ∃ r : Raw, r.b0.toNat * 256 + r.b1.toNat = h.toNat ∧ r.b2.getLsbD 7 = sgn ∧
      r.b2.toNat % 128 * 256 + r.b3.toNat = m.toNat ∧ r.b4 = c ∧
      exec (.frame40B h sgn m c) s = .next { s with
        raw := r, temp := if sgn then negate (f32 m.toNat 10) else f32 m.toNat 10, hum := f32 h.toNat 10
        phase := .range }

/-- R152: Variant A does not depend on the fractional bytes, and its values are the whole numbers of
bytes 2 and 0; the checksum does take the fractional bytes in. -/
def Obligations.VariantAIgnoresTheFractions : Prop :=
  ∀ (x0 x1 y1 x2 x3 y3 c : Byte),
    temperature .a x2 x3 = temperature .a x2 y3 ∧ tX10 .a x2 x3 = tX10 .a x2 y3 ∧
    humidity .a x0 x1 = humidity .a x0 y1 ∧ hX10 .a x0 x1 = hX10 .a x0 y1 ∧
    value150 (temperature .a x2 x3) = x2.toNat * 2 ^ 150 ∧ value150 (humidity .a x0 x1) = x0.toNat * 2 ^ 150 ∧
    (sumOk ⟨x0, x1, x2, x3, c⟩ = true ↔ (x0.toNat + x1.toNat + x2.toNat + x3.toNat) % 256 = c.toNat)

/-- R153: Variant B's temperature is sign and magnitude: setting the sign bit of the high byte flips
the sign bit of the result and negates the tenths, for every magnitude; it is not two's complement. -/
def Obligations.TemperatureIsSignAndMagnitude : Prop :=
  ∀ (x2 x3 : Byte), x2.getLsbD 7 = false →
    temperature .b (x2 ||| 0x80#8) x3 = temperature .b x2 x3 ^^^ 0x80000000#32 ∧
    tX10 .b (x2 ||| 0x80#8) x3 = -tX10 .b x2 x3 ∧
    value150 (temperature .b (x2 ||| 0x80#8) x3) = -value150 (temperature .b x2 x3) ∧
    tX10 .b 0xFF#8 0xFF#8 = -32767

/-- Variant B's round trip: `v` split into two bytes extracts to `f32(v / 10)`, which is exactly `v / 10`
when 5 divides `v` and otherwise misses it by less than half a unit in the last place (41_extractor.md
section 1, an inference the spec marks as its own). -/
def Obligations.VariantBRoundTrip : Prop :=
  ∀ v : Nat, v ≤ 65535 →
    humidity .b (BitVec.ofNat 8 (v / 256)) (BitVec.ofNat 8 v) = f32 v 10 ∧
    (v ≤ 32767 → temperature .b (BitVec.ofNat 8 (v / 256)) (BitVec.ofNat 8 v) = f32 v 10) ∧
    (10 * value150 (f32 v 10) = v * 2 ^ 150 ↔ v % 5 = 0) ∧
    (v % 5 ≠ 0 → 2 * |10 * value150 (f32 v 10) - v * 2 ^ 150| < 10 * 2 ^ ((f32 v 10).extractLsb' 23 8).toNat)

/-- R155: the sign flag with magnitude 0 extracts to negative zero, which counts as 0. -/
def Obligations.NegativeZeroCountsAsZero : Prop :=
  temperature .b 0x80#8 0x00#8 = 0x80000000#32 ∧ tX10 .b 0x80#8 0x00#8 = 0 ∧
  tenthsOf 0x80000000#32 = 0 ∧ value150 0x80000000#32 = value150 0x00000000#32

/-- `f32(n / 10)` is the binary32 value nearest `n / 10`, a tie going to the even one; whole numbers
are exact; negation flips the sign bit and the value's sign (41_extractor.md section 2). -/
def Obligations.SinglesAreNearest : Prop :=
  (∀ (n : Nat) (y : Single), n ≤ 65535 → isFinite y = true →
    isFinite (f32 n 10) = true ∧
    |10 * value150 (f32 n 10) - n * 2 ^ 150| ≤ |10 * value150 y - n * 2 ^ 150| ∧
    (|10 * value150 (f32 n 10) - n * 2 ^ 150| = |10 * value150 y - n * 2 ^ 150| →
      value150 y = value150 (f32 n 10) ∨ (f32 n 10).getLsbD 0 = false)) ∧
  (∀ n : Nat, n ≤ 255 → value150 (f32 n 1) = n * 2 ^ 150) ∧
  ∀ x : Single, negate x = x ^^^ 0x80000000#32 ∧ value150 (negate x) = -value150 x

/-- `TEMP` and `HUM` are the images of their tenths, but for the sign of zero, and comparing two numbers
of tenths gives the same answer as comparing their images (41_extractor.md section 2; the comparison is
an inference the spec marks as its own). -/
def Obligations.TenthsCompareAsTheirSingles : Prop :=
  (∀ (v : Variant) (x0 x1 x2 x3 : Byte),
    humidity v x0 x1 = imageOfTenths (hX10 v x0 x1) ∧
    (temperature v x2 x3 = imageOfTenths (tX10 v x2 x3) ∨
      tX10 v x2 x3 = 0 ∧ temperature v x2 x3 = 0x80000000#32)) ∧
  ∀ a b : Int, a.natAbs ≤ 65535 → b.natAbs ≤ 65535 →
    (a < b ↔ value150 (imageOfTenths a) < value150 (imageOfTenths b)) ∧
    (a = b ↔ value150 (imageOfTenths a) = value150 (imageOfTenths b))

/-- R159: RANGE_CHECK on what the extractor wrote: both values within their inclusive bounds complete
the command; any other pair raises the generic failure. No line operation. -/
def Obligations.RangeCheckDecides : Prop :=
  ∀ (s : State) (x0 x1 x2 x3 : Byte),
    s.temp = temperature s.variant x2 x3 → s.hum = humidity s.variant x0 x1 →
    let t := tX10 s.variant x2 x3
    let h : Int := hX10 s.variant x0 x1
    (tMin s.params s.variant ≤ t ∧ t ≤ tMax s.params s.variant ∧ hMin s.params s.variant ≤ h ∧ h ≤ hMax s.params s.variant →
      exec .rangeCheck s = .next { s with status := .ok, due := .pair, phase := .done }) ∧
    (t < tMin s.params s.variant ∨ tMax s.params s.variant < t ∨ h < hMin s.params s.variant ∨ hMax s.params s.variant < h →
      exec .rangeCheck s = .next { s with status := .fail, phase := .fail })

/-- What the extractor can produce (41_extractor.md section 3, an inference the spec marks as its own). -/
def Obligations.ExtractorRange : Prop :=
  ∀ (x0 x1 x2 x3 : Byte),
    (tX10 .a x2 x3 % 10 = 0 ∧ 0 ≤ tX10 .a x2 x3 ∧ tX10 .a x2 x3 ≤ 2550) ∧
    (hX10 .a x0 x1 % 10 = 0 ∧ hX10 .a x0 x1 ≤ 2550) ∧
    (-32767 ≤ tX10 .b x2 x3 ∧ tX10 .b x2 x3 ≤ 32767) ∧ hX10 .b x0 x1 ≤ 65535

/-! ### Frames -/

/-- What no instruction writes (parameters, inputs, response port), and what only INIT writes: VARIANT
and INITED (10_state.md section 3; 20_memory.md section 5). -/
def Obligations.OnlyInitWritesTheConfiguration : Prop :=
  ∀ (i : Instr) (s t : State), exec i s = .next t →
    t.params = s.params ∧ t.cap = s.cap ∧ t.host = s.host ∧ t.rsp = s.rsp ∧
    ((∀ v, i ≠ .init v) → t.variant = s.variant ∧ t.inited = s.inited)

/-- The line registers: only START writes them; and only the waits, RESPONSE, RDBIT and RDFRAME read
the line (10_state.md section 5; 20_memory.md section 3). -/
def Obligations.OnlyStartDrivesTheLine : Prop :=
  ∀ (i : Instr) (s t : State), exec i s = .next t →
    (i ≠ .start → t.lineOE = s.lineOE ∧ t.lineOut = s.lineOut) ∧
    (i ∉ [Instr.w1, .w2, .w3, .w4, .w5, .response, .rdbit, .rdframe] → (∀ k, i ≠ .wait k) →
      t.lineIn = s.lineIn ∧ t.reads = s.reads) ∧
    (i ∈ [Instr.checksum, .extractTemperature, .extractHumidity, .rangeCheck] ∨ i.format = .frame40 → t.trace = s.trace)

/-- The data registers: RAW and SBIT are written by RDBIT and RDFRAME only, RAW in the one bit at
(BYTE_IDX, BIT_IDX) only; TEMP and HUM by their extract operations only (the frame rows, which stand
for a received frame, apart; log 10) (10_state.md sections 1, 2). -/
def Obligations.DataRegistersFrame : Prop :=
  ∀ (i : Instr) (s t : State), exec i s = .next t →
    (i ∉ [Instr.rdbit, .rdframe] → t.sbit = s.sbit) ∧
    (i ∉ [Instr.rdbit, .rdframe] → i.format ≠ .frame40 → t.raw = s.raw) ∧
    (i ∈ [Instr.rdbit, .rdframe] → ∀ (j : Fin 5) (n : Nat), n < 8 → (j = s.byteIdx ∧ n = s.bitIdx.val) ∨
      (t.raw.get j).getLsbD n = (s.raw.get j).getLsbD n) ∧
    (i ≠ .extractTemperature → (∀ h x u y c, i ≠ .frame40A h x u y c) → (∀ h g m c, i ≠ .frame40B h g m c) →
      t.temp = s.temp) ∧
    (i ≠ .extractHumidity → (∀ h x u y c, i ≠ .frame40A h x u y c) → (∀ h g m c, i ≠ .frame40B h g m c) →
      t.hum = s.hum)

/-- The sequencing registers: the indices, ELAPSED, OP and STATUS are written only by the
instructions whose rules name them (10_state.md sections 4, 6; 40_decoder.md section 2). -/
def Obligations.SequencingRegistersFrame : Prop :=
  ∀ (i : Instr) (s t : State), exec i s = .next t →
    (i ∉ [Instr.w3, .wait .w3, .w5, .wait .w5, .response, .rdbit, .rdframe] →
      t.byteIdx = s.byteIdx ∧ t.bitIdx = s.bitIdx) ∧
    (i ∉ [Instr.start, .w1, .w2, .w3, .w4, .w5, .response, .rdbit, .rdframe] → (∀ k, i ≠ .wait k) →
      t.elapsed = s.elapsed) ∧
    ((∀ v, i ≠ .readSample v ∧ i ≠ .readRaw v) → t.op = s.op) ∧
    (i ∈ [Instr.start, .extractTemperature, .extractHumidity] ∨
      (∃ h x u y c, i = .frame40A h x u y c) ∨ (∃ h g m c, i = .frame40B h g m c) → t.status = s.status)

/-! ### The whole machine -/

/-- The invariant holds at reset. -/
def Obligations.ResetMeetsTheInvariant : Prop := State.reset.Inv

/-- Every step keeps the invariant: the line is driven exactly inside START, ELAPSED stays within the
ceiling of its wait, nothing runs uninitialised, DONE and FAIL carry their statuses, a delivered frame
has a right checksum and a delivered pair is the extractor's and in range (log 17 for the tenths). -/
def Obligations.EveryStepKeepsTheInvariant : Prop :=
  ∀ s t : State, s.Inv → step s = .next t → t.Inv

/-- From every state that meets the invariant the machine steps on: it never reads the line while it
drives it, never writes a released line, and no instruction is refused (20_memory.md section 3). -/
def Obligations.TheMachineNeverStops : Prop :=
  ∀ s : State, s.Inv → ∃ t, step s = .next t

/-- In a state that meets the invariant, and without a reset, exactly one row of the transition table
applies, under the command accepted in the step, and the step is that row (40_decoder.md section 2).
That a step in IDLE with no command accepted answers a state, the row `stay`, is the model's (log 20):
the spec says that the engine does not step there. -/
def Obligations.StepIsTheTransitionTable : Prop :=
  ∀ s : State, s.Inv → (∀ rest, s.host ≠ .reset :: rest) →
    ∃ t, step s = .next t ∧ ∀ u, TableRow (acceptedWord s) (takeInputs s) u ↔ u = t

/-- Each micro-step performs at most one line operation; only accepting a command starts a new trace
(20_memory.md sections 3, 4). -/
def Obligations.AtMostOneLineOperationPerStep : Prop :=
  ∀ s t : State, step s = .next t →
    t.trace = s.trace ∨ (∃ o, t.trace = o :: s.trace) ∨ (t.trace = [] ∧ s.phase = .idle ∧ acceptedWord s ≠ none)

/-- R171: EXTRACT is reached only from CHECK with the sums equal, for READ_SAMPLE; RANGE only from
EXTRACT; neither performs a line operation, in the step of the machine. -/
def Obligations.ExtractorRunsOnlyAfterTheDecoder : Prop :=
  ∀ s t : State, step s = .next t →
    (t.phase = .extract → s.phase = .check ∧ sumOk s.raw = true ∧ s.op = .readSample) ∧
    (t.phase = .range → s.phase = .extract) ∧
    (s.phase = .check ∨ s.phase = .extract ∨ s.phase = .range → t.trace = s.trace)

/-- Every command terminates, whatever the line does and whatever the host presents after it but a
reset, within the bound on its reads and delays, with at most two `Dir` and two `Wr` (40_decoder.md
section 8, an inference the spec marks as its own). -/
def Obligations.EveryCommandTerminates : Prop :=
  ∀ (s : State) (w : BitVec 3) (c : BitVec 5) (rest : List HostEvent),
    s.phase = .idle → s.host = .command w c :: rest → .reset ∉ rest → 1 ≤ s.params.tickUs →
    let bound := maxReads s.params .w1 + maxReads s.params .w2 + maxReads s.params .w3 +
      40 * (maxReads s.params .w4 + 1 + maxReads s.params .w5)
    ∃ n t, runs (n + 1) s = .next t ∧ t.phase = .idle ∧ (∃ r, t.rsp = some r) ∧
      readCount t.trace ≤ bound ∧ delayCount t.trace ≤ 2 + bound ∧
      t.trace.countP (fun o => o = .dir true ∨ o = .dir false) ≤ 2 ∧
      t.trace.countP (fun o => o = .wr true ∨ o = .wr false) ≤ 2

/-- The longest a command can take in the bookkeeping clock: every wait at its longest successful
exit, and one tick for the last to time out (70_reset_and_hazards.md section 4). -/
def Obligations.CommandDurationIsBounded : Prop :=
  ∀ (s : State) (w : BitVec 3) (c : BitVec 5), s.phase = .idle → s.host = [.command w c] → 1 ≤ s.params.tickUs →
    let longest := fun k => s.params.tickUs * (ceiling s.params k / s.params.tickUs)
    ∃ n t, runs (n + 1) s = .next t ∧ t.phase = .idle ∧ (∃ r, t.rsp = some r) ∧
      now t.trace ≤ 1000 * startLowMs s.params s.variant + s.params.tStartHighUs +
        (longest .w1 + longest .w2 + longest .w3 + 40 * (longest .w4 + s.params.tSampleUs + longest .w5)) + s.params.tickUs

/-- The outcome of a command depends only on INITED, VARIANT, the parameters and the answers to its
reads, never on what an earlier command left in RAW, STATUS, TEMP, HUM, the indices or any other
register: two engines that agree on those give, step by step, the same trace and the same response
(42_pipeline.md; 10_state.md section 9). -/
def Obligations.CommandsAreIndependentOfThePast : Prop :=
  ∀ (s u : State) (w : BitVec 3) (c : BitVec 5), s.phase = .idle → u.phase = .idle →
    s.host = [.command w c] → u.host = [.command w c] → s.params = u.params → s.variant = u.variant →
    s.inited = u.inited → s.lineIn = u.lineIn → s.reads = u.reads →
    ∀ (n : Nat) (t : State), runs (n + 1) s = .next t →
      ∃ t', runs (n + 1) u = .next t' ∧ t'.phase = t.phase ∧ t'.trace = t.trace ∧ t'.rsp = t.rsp

/-- READ_SAMPLE and READ_RAW from acceptance to response, whatever the widths within the ceilings:
the response is the one the frame on the wire earns, the line ends released at its idle level, and
nothing past the frame is read (42_pipeline.md; 40_decoder.md section 8). -/
def Obligations.TransactionDeliversTheFrameOnTheWire : Prop :=
  ∀ (s : State) (o : ReadOp) (v : Bool) (c : BitVec 5) (f : BitVec 40) (n1 n2 n3 : Nat) (m w : Nat → Nat)
    (rest : List Level),
    s.phase = .idle → s.inited = true → s.host = [.command (cmdWord v o.code) c] →
    n1 * s.params.tickUs ≤ s.params.ceilAckUs → n2 * s.params.tickUs ≤ s.params.ceilRespUs →
    n3 * s.params.tickUs ≤ s.params.ceilRespUs →
    (∀ j < 40, m j * s.params.tickUs ≤ s.params.ceilBitLowUs ∧ w j * s.params.tickUs ≤ s.params.ceilBitHighUs) →
    s.lineIn = responseAnswers n1 n2 n3 ++ (frameAnswers f m w ++ rest) →
    ∃ n t, runs n s = .next t ∧ t.phase = .idle ∧ t.lineOE = false ∧ t.lineOut = true ∧ t.lineIn = rest ∧
      t.rsp = some (transactionResponse s.params s.variant o (Raw.ofFrame f))
end

