-- ==== Sys2Proof/Laws/Float.lean ====
section
/-! SUPPORT. binary32 (spec/41_extractor.md R157, R158): rounding, the magnitude of an image, and the tenths view read back from it. -/

namespace Sys2Proof.Machine

/-- Rounding is off by at most half a unit. -/
theorem roundHalfEven_bounds (a : Nat) {b : Nat} (hb : 0 < b) :
    2 * a ≤ 2 * (b * roundHalfEven a b) + b ∧ 2 * (b * roundHalfEven a b) ≤ 2 * a + b := by
  have hd := Nat.div_add_mod a b
  have hm := Nat.mod_lt a hb
  unfold roundHalfEven
  split
  · omega
  · rw [Nat.mul_add, Nat.mul_one]; omega

/-- A number less than half a unit away rounds to the integer. -/
theorem roundHalfEven_eq {a b n : Nat} (h1 : 2 * a < 2 * (b * n) + b) (h2 : 2 * (b * n) < 2 * a + b) :
    roundHalfEven a b = n := by
  have hb : 0 < b := by omega
  obtain ⟨r1, r2⟩ := roundHalfEven_bounds a hb
  set r := roundHalfEven a b
  have h3 : b * r < b * (n + 1) := by rw [Nat.mul_add, Nat.mul_one]; omega
  have h4 : b * n < b * (r + 1) := by rw [Nat.mul_add, Nat.mul_one]; omega
  have := Nat.lt_of_mul_lt_mul_left h3
  have := Nat.lt_of_mul_lt_mul_left h4
  omega

theorem fields_arith {e m : Nat} (he : e < 256) (hm : m < 8388608) :
    (e * 8388608 + m) % 4294967296 / 8388608 % 256 = e ∧ (e * 8388608 + m) % 4294967296 % 8388608 = m ∧
      (e * 8388608 + m) % 4294967296 / 2147483648 % 2 = 0 := by
  omega

/-- The fields of a pattern given by exponent and significand. -/
theorem fields_ofNat {e m : Nat} (he : e < 256) (hm : m < 2 ^ 23) :
    ((BitVec.ofNat 32 (e * 2 ^ 23 + m)).extractLsb' 23 8).toNat = e ∧
    ((BitVec.ofNat 32 (e * 2 ^ 23 + m)).extractLsb' 0 23).toNat = m ∧
    (BitVec.ofNat 32 (e * 2 ^ 23 + m)).getLsbD 31 = false := by
  obtain ⟨h1, h2, h3⟩ := fields_arith he hm
  refine ⟨?_, ?_, ?_⟩
  · rw [BitVec.extractLsb'_toNat, BitVec.toNat_ofNat, Nat.shiftRight_eq_div_pow]; exact h1
  · rw [BitVec.extractLsb'_toNat, BitVec.toNat_ofNat, Nat.shiftRight_zero]; exact h2
  · rw [BitVec.getLsbD, BitVec.toNat_ofNat, Nat.testBit_eq_decide_div_mod_eq]
    exact decide_eq_false (by rw [show (2 : Nat) ^ 31 = 2147483648 from rfl, show (2 : Nat) ^ 32 = 4294967296 from rfl,
      show (2 : Nat) ^ 23 = 8388608 from rfl, h3]; decide)

theorem magnitude150_ofNat {e m : Nat} (he : 0 < e) (he' : e < 256) (hm : m < 2 ^ 23) :
    magnitude150 (BitVec.ofNat 32 (e * 2 ^ 23 + m)) = (2 ^ 23 + m) * 2 ^ e := by
  obtain ⟨h1, h2, -⟩ := fields_ofNat he' hm
  unfold magnitude150
  rw [if_neg, h1, h2]
  intro h
  rw [h] at h1
  simp at h1
  omega

/-- The power of two at or below `16 n / d`. -/
theorem log2_quotient {n d : Nat} (hd : 0 < d) (h : d ≤ 16 * n) :
    d * 2 ^ Nat.log2 (16 * n / d) ≤ 16 * n ∧ 16 * n < d * 2 ^ (Nat.log2 (16 * n / d) + 1) := by
  have hq : 16 * n / d ≠ 0 := by
    have := (Nat.one_le_div_iff hd).2 h
    omega
  constructor
  · calc d * 2 ^ Nat.log2 (16 * n / d) ≤ d * (16 * n / d) := Nat.mul_le_mul_left _ (Nat.log2_self_le hq)
      _ ≤ 16 * n := Nat.mul_div_le _ _
  · have := Nat.lt_log2_self (n := 16 * n / d)
    calc 16 * n < d * (16 * n / d + 1) := by
          rw [Nat.mul_add, Nat.mul_one]; have := Nat.div_add_mod (16 * n) d
          have := Nat.mod_lt (16 * n) hd; omega
      _ ≤ d * 2 ^ (Nat.log2 (16 * n / d) + 1) := Nat.mul_le_mul_left _ this

/-- The significand of an image lies between `2^23` and `2^24`. -/
theorem significand_bounds {n d k : Nat} (hd : 0 < d) (h1 : d * 2 ^ k ≤ 16 * n) (h2 : 16 * n < d * 2 ^ (k + 1)) :
    2 ^ 23 ≤ roundHalfEven (n * 2 ^ 27) (d * 2 ^ k) ∧ roundHalfEven (n * 2 ^ 27) (d * 2 ^ k) ≤ 2 ^ 24 := by
  have hb : 0 < d * 2 ^ k := Nat.mul_pos hd (Nat.two_pow_pos k)
  obtain ⟨r1, r2⟩ := roundHalfEven_bounds (n * 2 ^ 27) hb
  rw [Nat.pow_succ, ← Nat.mul_assoc] at h2
  generalize d * 2 ^ k = b at *
  generalize roundHalfEven (n * 2 ^ 27) b = r at *
  constructor
  · by_contra h
    have : b * (r + 1) ≤ b * 2 ^ 23 := Nat.mul_le_mul_left _ (by omega)
    rw [Nat.mul_add, Nat.mul_one] at this
    omega
  · by_contra h
    have : b * (2 ^ 24 + 1) ≤ b * r := Nat.mul_le_mul_left _ (by omega)
    omega

/-- The magnitude of an image: significand times its power of two. -/
theorem magnitude150_f32 {n d : Nat} (hd : 0 < d) (hn : d ≤ 16 * n) (hk : Nat.log2 (16 * n / d) < 100) :
    magnitude150 (f32 n d) =
        roundHalfEven (n * 2 ^ 27) (d * 2 ^ Nat.log2 (16 * n / d)) * 2 ^ (Nat.log2 (16 * n / d) + 123) ∧
      (f32 n d).getLsbD 31 = false := by
  obtain ⟨h1, h2⟩ := log2_quotient hd hn
  obtain ⟨m1, m2⟩ := significand_bounds hd h1 h2
  have hn0 : n ≠ 0 := by omega
  unfold f32
  rw [if_neg hn0]
  generalize Nat.log2 (16 * n / d) = k at *
  generalize roundHalfEven (n * 2 ^ 27) (d * 2 ^ k) = m at *
  rcases Nat.lt_or_ge m (2 ^ 24) with h | h
  · rw [show (k + 122) * 2 ^ 23 + m = (k + 123) * 2 ^ 23 + (m - 2 ^ 23) by omega]
    rw [magnitude150_ofNat (by omega) (by omega) (by omega)]
    exact ⟨by rw [show 2 ^ 23 + (m - 2 ^ 23) = m by omega], (fields_ofNat (by omega) (by omega)).2.2⟩
  · obtain rfl : m = 2 ^ 24 := by omega
    rw [show (k + 122) * 2 ^ 23 + 2 ^ 24 = (k + 124) * 2 ^ 23 + 0 by omega]
    rw [magnitude150_ofNat (by omega) (by omega) (by omega)]
    refine ⟨?_, (fields_ofNat (by omega) (by omega)).2.2⟩
    rw [show k + 124 = (k + 123) + 1 by omega, Nat.pow_succ 2 (k + 123)]
    ring

/-- Rounding a quotient does not depend on a common factor. -/
theorem roundHalfEven_scale (a b : Nat) : roundHalfEven a b = roundHalfEven (10 * a) (10 * b) := by
  unfold roundHalfEven
  rw [Nat.mul_mod_mul_left, Nat.mul_div_mul_left _ _ (by norm_num)]
  congr 1
  simp only [eq_iff_iff]
  omega

/-- `f32` of a whole number is `f32` of ten times as many tenths (R158). -/
theorem f32_whole (n : Nat) : f32 n 1 = f32 (10 * n) 10 := by
  unfold f32
  by_cases h : n = 0
  · simp [h]
  · rw [if_neg h, if_neg (by omega)]
    have e : 16 * (10 * n) / 10 = 16 * n / 1 := by omega
    rw [e, roundHalfEven_scale, Nat.one_mul, Nat.mul_assoc]

/-- Scaling by a power of two, the step that reads tenths back. -/
theorem roundHalfEven_of_units {x n p : Nat} (hp : 0 < p) (h1 : 2 * x < 2 * (134217728 * n) + 134217728)
    (h2 : 2 * (134217728 * n) < 2 * x + 134217728) : roundHalfEven (x * p) (134217728 * p) = n := by
  apply roundHalfEven_eq
  · calc 2 * (x * p) = 2 * x * p := by ring
      _ < (2 * (134217728 * n) + 134217728) * p := Nat.mul_lt_mul_of_pos_right h1 hp
      _ = 2 * (134217728 * p * n) + 134217728 * p := by ring
  · calc 2 * (134217728 * p * n) = 2 * (134217728 * n) * p := by ring
      _ < (2 * x + 134217728) * p := Nat.mul_lt_mul_of_pos_right h2 hp
      _ = 2 * (x * p) + 134217728 * p := by ring

theorem units_arith {n x p : Nat} (hk : 10 * p ≤ 16 * n) (hn : n ≤ 65535)
    (r1 : 2 * (n * 134217728) ≤ 2 * x + 10 * p) (r2 : 2 * x ≤ 2 * (n * 134217728) + 10 * p) :
    2 * x < 2 * (134217728 * n) + 134217728 ∧ 2 * (134217728 * n) < 2 * x + 134217728 := by
  omega

/-- The step that reads tenths back, on the rounded significand `m` at `2^k`. -/
theorem tenths_of_significand {n m k : Nat} (hk : 10 * 2 ^ k ≤ 16 * n) (hn : n ≤ 65535)
    (r1 : 2 * (n * 2 ^ 27) ≤ 2 * (10 * 2 ^ k * m) + 10 * 2 ^ k)
    (r2 : 2 * (10 * 2 ^ k * m) ≤ 2 * (n * 2 ^ 27) + 10 * 2 ^ k) :
    roundHalfEven (10 * (m * 2 ^ (k + 123))) (2 ^ 150) = n := by
  have e : 10 * (m * 2 ^ (k + 123)) = 10 * 2 ^ k * m * 2 ^ 123 := by rw [Nat.pow_add]; ring
  have e' : (2 : Nat) ^ 150 = 134217728 * 2 ^ 123 := by norm_num
  obtain ⟨u1, u2⟩ := units_arith hk hn r1 r2
  rw [e, e']
  exact roundHalfEven_of_units (Nat.two_pow_pos 123) u1 u2

/-- The tenths are read back from their image (R158). -/
theorem tenths_of_image {n : Nat} (hn : n ≤ 65535) :
    roundHalfEven (10 * magnitude150 (f32 n 10)) (2 ^ 150) = n ∧ (f32 n 10).getLsbD 31 = false := by
  by_cases h0 : n = 0
  · subst h0
    exact ⟨by simp [f32, magnitude150, roundHalfEven], by decide⟩
  obtain ⟨h1, h2⟩ := log2_quotient (n := n) (d := 10) (by norm_num) (by omega)
  have hk : Nat.log2 (16 * n / 10) < 100 := by
    by_contra h
    have h3 : 2 ^ 17 ≤ 2 ^ Nat.log2 (16 * n / 10) := Nat.pow_le_pow_right (by norm_num) (by omega)
    have h4 : 10 * 2 ^ 17 ≤ 16 * n := Nat.le_trans (Nat.mul_le_mul_left 10 h3) h1
    omega
  obtain ⟨hm, hs⟩ := magnitude150_f32 (n := n) (d := 10) (by norm_num) (by omega) hk
  obtain ⟨r1, r2⟩ := roundHalfEven_bounds (n * 2 ^ 27) (b := 10 * 2 ^ Nat.log2 (16 * n / 10)) (by positivity)
  rw [hm]
  exact ⟨tenths_of_significand h1 hn r1 r2, hs⟩

/-- Negation flips the sign bit and nothing else (R157). -/
theorem negate_fields (x : Single) :
    magnitude150 (negate x) = magnitude150 x ∧ (negate x).getLsbD 31 = !x.getLsbD 31 := by
  have h1 : (negate x).extractLsb' 23 8 = x.extractLsb' 23 8 := by
    apply BitVec.eq_of_getLsbD_eq; intro i hi
    simp only [negate, BitVec.getLsbD_extractLsb', BitVec.getLsbD_xor, hi]
    interval_cases i <;> simp
  have h2 : (negate x).extractLsb' 0 23 = x.extractLsb' 0 23 := by
    apply BitVec.eq_of_getLsbD_eq; intro i hi
    simp only [negate, BitVec.getLsbD_extractLsb', BitVec.getLsbD_xor, hi]
    interval_cases i <;> simp
  exact ⟨by simp only [magnitude150, h1, h2], by simp [negate]⟩

theorem tenthsOf_f32 {n : Nat} (hn : n ≤ 65535) : tenthsOf (f32 n 10) = n := by
  obtain ⟨h, hs⟩ := tenths_of_image hn
  simp only [tenthsOf, hs, h]; rfl

theorem tenthsOf_negate_f32 {n : Nat} (hn : n ≤ 65535) : tenthsOf (negate (f32 n 10)) = -(n : Int) := by
  obtain ⟨h, hs⟩ := tenths_of_image hn
  obtain ⟨hm, hs'⟩ := negate_fields (f32 n 10)
  simp only [tenthsOf, hs', hs, hm, h]; rfl

theorem tempMagnitude_le (x2 x3 : Byte) : tempMagnitude x2 x3 ≤ 32767 := by
  unfold tempMagnitude
  have := (x2.extractLsb' 0 7).isLt
  have := x3.isLt
  omega

theorem field16_le (hi lo : Byte) : field16 hi lo ≤ 65535 := by
  unfold field16
  have := hi.isLt
  have := lo.isLt
  omega

/-- What EXTRACT_TEMPERATURE wrote is read back as `T_X10` (R150, R158). -/
theorem tenthsOf_temperature (v : Variant) (x2 x3 : Byte) : tenthsOf (temperature v x2 x3) = tX10 v x2 x3 := by
  have h2 := x2.isLt
  have hm := tempMagnitude_le x2 x3
  cases v
  · simp only [temperature, tX10, f32_whole]
    rw [tenthsOf_f32 (by omega)]; push_cast; rfl
  · simp only [temperature, tX10]
    split
    · exact tenthsOf_negate_f32 (by omega)
    · exact tenthsOf_f32 (by omega)

/-- What EXTRACT_HUMIDITY wrote is read back as `H_X10` (R151, R158). -/
theorem tenthsOf_humidity (v : Variant) (x0 x1 : Byte) : tenthsOf (humidity v x0 x1) = hX10 v x0 x1 := by
  have h0 := x0.isLt
  cases v
  · simp only [humidity, hX10, f32_whole]
    rw [tenthsOf_f32 (by omega)]
  · exact tenthsOf_f32 (field16_le x0 x1)

end Sys2Proof.Machine
end

