-- ==== Sys2Proof/Laws/State.lean ====
section
/-! SUPPORT. One lemma for each field and each named update of State, so that no proof unfolds an update. -/

namespace Sys2Proof.Machine

/-! ### After `Dir(o)` (R56) -/

@[simp] theorem dir_params (o : Bool) (s : State) : (dir o s).params = s.params := rfl
@[simp] theorem dir_phase (o : Bool) (s : State) : (dir o s).phase = s.phase := rfl
@[simp] theorem dir_byteIdx (o : Bool) (s : State) : (dir o s).byteIdx = s.byteIdx := rfl
@[simp] theorem dir_bitIdx (o : Bool) (s : State) : (dir o s).bitIdx = s.bitIdx := rfl
@[simp] theorem dir_elapsed (o : Bool) (s : State) : (dir o s).elapsed = s.elapsed := rfl
@[simp] theorem dir_op (o : Bool) (s : State) : (dir o s).op = s.op := rfl
@[simp] theorem dir_variant (o : Bool) (s : State) : (dir o s).variant = s.variant := rfl
@[simp] theorem dir_inited (o : Bool) (s : State) : (dir o s).inited = s.inited := rfl
@[simp] theorem dir_lineOE (o : Bool) (s : State) : (dir o s).lineOE = o := rfl
@[simp] theorem dir_lineOut (o : Bool) (s : State) : (dir o s).lineOut = s.lineOut := rfl
@[simp] theorem dir_status (o : Bool) (s : State) : (dir o s).status = s.status := rfl
@[simp] theorem dir_raw (o : Bool) (s : State) : (dir o s).raw = s.raw := rfl
@[simp] theorem dir_sbit (o : Bool) (s : State) : (dir o s).sbit = s.sbit := rfl
@[simp] theorem dir_temp (o : Bool) (s : State) : (dir o s).temp = s.temp := rfl
@[simp] theorem dir_hum (o : Bool) (s : State) : (dir o s).hum = s.hum := rfl
@[simp] theorem dir_rsp (o : Bool) (s : State) : (dir o s).rsp = s.rsp := rfl
@[simp] theorem dir_due (o : Bool) (s : State) : (dir o s).due = s.due := rfl
@[simp] theorem dir_cap (o : Bool) (s : State) : (dir o s).cap = s.cap := rfl
@[simp] theorem dir_host (o : Bool) (s : State) : (dir o s).host = s.host := rfl
@[simp] theorem dir_lineIn (o : Bool) (s : State) : (dir o s).lineIn = s.lineIn := rfl
@[simp] theorem dir_reads (o : Bool) (s : State) : (dir o s).reads = s.reads := rfl
@[simp] theorem dir_trace (o : Bool) (s : State) : (dir o s).trace = .dir o :: s.trace := rfl

/-! ### After `DlyMs(n)` (R59) -/

@[simp] theorem delayMs_params (n : Nat) (s : State) : (delayMs n s).params = s.params := rfl
@[simp] theorem delayMs_phase (n : Nat) (s : State) : (delayMs n s).phase = s.phase := rfl
@[simp] theorem delayMs_byteIdx (n : Nat) (s : State) : (delayMs n s).byteIdx = s.byteIdx := rfl
@[simp] theorem delayMs_bitIdx (n : Nat) (s : State) : (delayMs n s).bitIdx = s.bitIdx := rfl
@[simp] theorem delayMs_elapsed (n : Nat) (s : State) : (delayMs n s).elapsed = s.elapsed := rfl
@[simp] theorem delayMs_op (n : Nat) (s : State) : (delayMs n s).op = s.op := rfl
@[simp] theorem delayMs_variant (n : Nat) (s : State) : (delayMs n s).variant = s.variant := rfl
@[simp] theorem delayMs_inited (n : Nat) (s : State) : (delayMs n s).inited = s.inited := rfl
@[simp] theorem delayMs_lineOE (n : Nat) (s : State) : (delayMs n s).lineOE = s.lineOE := rfl
@[simp] theorem delayMs_lineOut (n : Nat) (s : State) : (delayMs n s).lineOut = s.lineOut := rfl
@[simp] theorem delayMs_status (n : Nat) (s : State) : (delayMs n s).status = s.status := rfl
@[simp] theorem delayMs_raw (n : Nat) (s : State) : (delayMs n s).raw = s.raw := rfl
@[simp] theorem delayMs_sbit (n : Nat) (s : State) : (delayMs n s).sbit = s.sbit := rfl
@[simp] theorem delayMs_temp (n : Nat) (s : State) : (delayMs n s).temp = s.temp := rfl
@[simp] theorem delayMs_hum (n : Nat) (s : State) : (delayMs n s).hum = s.hum := rfl
@[simp] theorem delayMs_rsp (n : Nat) (s : State) : (delayMs n s).rsp = s.rsp := rfl
@[simp] theorem delayMs_due (n : Nat) (s : State) : (delayMs n s).due = s.due := rfl
@[simp] theorem delayMs_cap (n : Nat) (s : State) : (delayMs n s).cap = s.cap := rfl
@[simp] theorem delayMs_host (n : Nat) (s : State) : (delayMs n s).host = s.host := rfl
@[simp] theorem delayMs_lineIn (n : Nat) (s : State) : (delayMs n s).lineIn = s.lineIn := rfl
@[simp] theorem delayMs_reads (n : Nat) (s : State) : (delayMs n s).reads = s.reads := rfl
@[simp] theorem delayMs_trace (n : Nat) (s : State) : (delayMs n s).trace = .dlyMs n :: s.trace := rfl

/-! ### After `DlyUs(n)` (R60) -/

@[simp] theorem delayUs_params (n : Nat) (s : State) : (delayUs n s).params = s.params := rfl
@[simp] theorem delayUs_phase (n : Nat) (s : State) : (delayUs n s).phase = s.phase := rfl
@[simp] theorem delayUs_byteIdx (n : Nat) (s : State) : (delayUs n s).byteIdx = s.byteIdx := rfl
@[simp] theorem delayUs_bitIdx (n : Nat) (s : State) : (delayUs n s).bitIdx = s.bitIdx := rfl
@[simp] theorem delayUs_elapsed (n : Nat) (s : State) : (delayUs n s).elapsed = s.elapsed := rfl
@[simp] theorem delayUs_op (n : Nat) (s : State) : (delayUs n s).op = s.op := rfl
@[simp] theorem delayUs_variant (n : Nat) (s : State) : (delayUs n s).variant = s.variant := rfl
@[simp] theorem delayUs_inited (n : Nat) (s : State) : (delayUs n s).inited = s.inited := rfl
@[simp] theorem delayUs_lineOE (n : Nat) (s : State) : (delayUs n s).lineOE = s.lineOE := rfl
@[simp] theorem delayUs_lineOut (n : Nat) (s : State) : (delayUs n s).lineOut = s.lineOut := rfl
@[simp] theorem delayUs_status (n : Nat) (s : State) : (delayUs n s).status = s.status := rfl
@[simp] theorem delayUs_raw (n : Nat) (s : State) : (delayUs n s).raw = s.raw := rfl
@[simp] theorem delayUs_sbit (n : Nat) (s : State) : (delayUs n s).sbit = s.sbit := rfl
@[simp] theorem delayUs_temp (n : Nat) (s : State) : (delayUs n s).temp = s.temp := rfl
@[simp] theorem delayUs_hum (n : Nat) (s : State) : (delayUs n s).hum = s.hum := rfl
@[simp] theorem delayUs_rsp (n : Nat) (s : State) : (delayUs n s).rsp = s.rsp := rfl
@[simp] theorem delayUs_due (n : Nat) (s : State) : (delayUs n s).due = s.due := rfl
@[simp] theorem delayUs_cap (n : Nat) (s : State) : (delayUs n s).cap = s.cap := rfl
@[simp] theorem delayUs_host (n : Nat) (s : State) : (delayUs n s).host = s.host := rfl
@[simp] theorem delayUs_lineIn (n : Nat) (s : State) : (delayUs n s).lineIn = s.lineIn := rfl
@[simp] theorem delayUs_reads (n : Nat) (s : State) : (delayUs n s).reads = s.reads := rfl
@[simp] theorem delayUs_trace (n : Nat) (s : State) : (delayUs n s).trace = .dlyUs n :: s.trace := rfl

/-! ### After `Rd()` (R58) -/

@[simp] theorem afterRead_params (s : State) : (s.afterRead).params = s.params := rfl
@[simp] theorem afterRead_phase (s : State) : (s.afterRead).phase = s.phase := rfl
@[simp] theorem afterRead_byteIdx (s : State) : (s.afterRead).byteIdx = s.byteIdx := rfl
@[simp] theorem afterRead_bitIdx (s : State) : (s.afterRead).bitIdx = s.bitIdx := rfl
@[simp] theorem afterRead_elapsed (s : State) : (s.afterRead).elapsed = s.elapsed := rfl
@[simp] theorem afterRead_op (s : State) : (s.afterRead).op = s.op := rfl
@[simp] theorem afterRead_variant (s : State) : (s.afterRead).variant = s.variant := rfl
@[simp] theorem afterRead_inited (s : State) : (s.afterRead).inited = s.inited := rfl
@[simp] theorem afterRead_lineOE (s : State) : (s.afterRead).lineOE = s.lineOE := rfl
@[simp] theorem afterRead_lineOut (s : State) : (s.afterRead).lineOut = s.lineOut := rfl
@[simp] theorem afterRead_status (s : State) : (s.afterRead).status = s.status := rfl
@[simp] theorem afterRead_raw (s : State) : (s.afterRead).raw = s.raw := rfl
@[simp] theorem afterRead_sbit (s : State) : (s.afterRead).sbit = s.sbit := rfl
@[simp] theorem afterRead_temp (s : State) : (s.afterRead).temp = s.temp := rfl
@[simp] theorem afterRead_hum (s : State) : (s.afterRead).hum = s.hum := rfl
@[simp] theorem afterRead_rsp (s : State) : (s.afterRead).rsp = s.rsp := rfl
@[simp] theorem afterRead_due (s : State) : (s.afterRead).due = s.due := rfl
@[simp] theorem afterRead_cap (s : State) : (s.afterRead).cap = s.cap := rfl
@[simp] theorem afterRead_host (s : State) : (s.afterRead).host = s.host := rfl
@[simp] theorem afterRead_lineIn (s : State) : (s.afterRead).lineIn = s.lineIn.tail := rfl
@[simp] theorem afterRead_reads (s : State) : (s.afterRead).reads = s.reads + 1 := rfl
@[simp] theorem afterRead_trace (s : State) : (s.afterRead).trace = .rd s.nextLevel :: s.trace := rfl

/-! ### After accepting a command (R14, R35) -/

@[simp] theorem accept_params (s : State) : (accept s).params = s.params := rfl
@[simp] theorem accept_phase (s : State) : (accept s).phase = s.phase := rfl
@[simp] theorem accept_byteIdx (s : State) : (accept s).byteIdx = s.byteIdx := rfl
@[simp] theorem accept_bitIdx (s : State) : (accept s).bitIdx = s.bitIdx := rfl
@[simp] theorem accept_elapsed (s : State) : (accept s).elapsed = s.elapsed := rfl
@[simp] theorem accept_op (s : State) : (accept s).op = s.op := rfl
@[simp] theorem accept_variant (s : State) : (accept s).variant = s.variant := rfl
@[simp] theorem accept_inited (s : State) : (accept s).inited = s.inited := rfl
@[simp] theorem accept_lineOE (s : State) : (accept s).lineOE = s.lineOE := rfl
@[simp] theorem accept_lineOut (s : State) : (accept s).lineOut = s.lineOut := rfl
@[simp] theorem accept_status (s : State) : (accept s).status = s.status := rfl
@[simp] theorem accept_raw (s : State) : (accept s).raw = s.raw := rfl
@[simp] theorem accept_sbit (s : State) : (accept s).sbit = s.sbit := rfl
@[simp] theorem accept_temp (s : State) : (accept s).temp = s.temp := rfl
@[simp] theorem accept_hum (s : State) : (accept s).hum = s.hum := rfl
@[simp] theorem accept_rsp (s : State) : (accept s).rsp = s.rsp := rfl
@[simp] theorem accept_due (s : State) : (accept s).due = s.due := rfl
@[simp] theorem accept_cap (s : State) : (accept s).cap = s.cap := rfl
@[simp] theorem accept_host (s : State) : (accept s).host = s.host := rfl
@[simp] theorem accept_lineIn (s : State) : (accept s).lineIn = s.lineIn := rfl
@[simp] theorem accept_reads (s : State) : (accept s).reads = s.reads := rfl
@[simp] theorem accept_trace (s : State) : (accept s).trace = [] := rfl

/-! ### After raising an error (R205) -/

@[simp] theorem raise_params (e : ErrorKind) (s : State) : (raise e s).params = s.params := rfl
@[simp] theorem raise_phase (e : ErrorKind) (s : State) : (raise e s).phase = .fail := rfl
@[simp] theorem raise_byteIdx (e : ErrorKind) (s : State) : (raise e s).byteIdx = s.byteIdx := rfl
@[simp] theorem raise_bitIdx (e : ErrorKind) (s : State) : (raise e s).bitIdx = s.bitIdx := rfl
@[simp] theorem raise_elapsed (e : ErrorKind) (s : State) : (raise e s).elapsed = s.elapsed := rfl
@[simp] theorem raise_op (e : ErrorKind) (s : State) : (raise e s).op = s.op := rfl
@[simp] theorem raise_variant (e : ErrorKind) (s : State) : (raise e s).variant = s.variant := rfl
@[simp] theorem raise_inited (e : ErrorKind) (s : State) : (raise e s).inited = s.inited := rfl
@[simp] theorem raise_lineOE (e : ErrorKind) (s : State) : (raise e s).lineOE = s.lineOE := rfl
@[simp] theorem raise_lineOut (e : ErrorKind) (s : State) : (raise e s).lineOut = s.lineOut := rfl
@[simp] theorem raise_status (e : ErrorKind) (s : State) : (raise e s).status = e.status := rfl
@[simp] theorem raise_raw (e : ErrorKind) (s : State) : (raise e s).raw = s.raw := rfl
@[simp] theorem raise_sbit (e : ErrorKind) (s : State) : (raise e s).sbit = s.sbit := rfl
@[simp] theorem raise_temp (e : ErrorKind) (s : State) : (raise e s).temp = s.temp := rfl
@[simp] theorem raise_hum (e : ErrorKind) (s : State) : (raise e s).hum = s.hum := rfl
@[simp] theorem raise_rsp (e : ErrorKind) (s : State) : (raise e s).rsp = s.rsp := rfl
@[simp] theorem raise_due (e : ErrorKind) (s : State) : (raise e s).due = s.due := rfl
@[simp] theorem raise_cap (e : ErrorKind) (s : State) : (raise e s).cap = s.cap := rfl
@[simp] theorem raise_host (e : ErrorKind) (s : State) : (raise e s).host = s.host := rfl
@[simp] theorem raise_lineIn (e : ErrorKind) (s : State) : (raise e s).lineIn = s.lineIn := rfl
@[simp] theorem raise_reads (e : ErrorKind) (s : State) : (raise e s).reads = s.reads := rfl
@[simp] theorem raise_trace (e : ErrorKind) (s : State) : (raise e s).trace = s.trace := rfl

/-! ### After completing without an error (rows T0a, T13, T17) -/

@[simp] theorem finish_params (k : RspKind) (s : State) : (finish k s).params = s.params := rfl
@[simp] theorem finish_phase (k : RspKind) (s : State) : (finish k s).phase = .done := rfl
@[simp] theorem finish_byteIdx (k : RspKind) (s : State) : (finish k s).byteIdx = s.byteIdx := rfl
@[simp] theorem finish_bitIdx (k : RspKind) (s : State) : (finish k s).bitIdx = s.bitIdx := rfl
@[simp] theorem finish_elapsed (k : RspKind) (s : State) : (finish k s).elapsed = s.elapsed := rfl
@[simp] theorem finish_op (k : RspKind) (s : State) : (finish k s).op = s.op := rfl
@[simp] theorem finish_variant (k : RspKind) (s : State) : (finish k s).variant = s.variant := rfl
@[simp] theorem finish_inited (k : RspKind) (s : State) : (finish k s).inited = s.inited := rfl
@[simp] theorem finish_lineOE (k : RspKind) (s : State) : (finish k s).lineOE = s.lineOE := rfl
@[simp] theorem finish_lineOut (k : RspKind) (s : State) : (finish k s).lineOut = s.lineOut := rfl
@[simp] theorem finish_status (k : RspKind) (s : State) : (finish k s).status = .ok := rfl
@[simp] theorem finish_raw (k : RspKind) (s : State) : (finish k s).raw = s.raw := rfl
@[simp] theorem finish_sbit (k : RspKind) (s : State) : (finish k s).sbit = s.sbit := rfl
@[simp] theorem finish_temp (k : RspKind) (s : State) : (finish k s).temp = s.temp := rfl
@[simp] theorem finish_hum (k : RspKind) (s : State) : (finish k s).hum = s.hum := rfl
@[simp] theorem finish_rsp (k : RspKind) (s : State) : (finish k s).rsp = s.rsp := rfl
@[simp] theorem finish_due (k : RspKind) (s : State) : (finish k s).due = k := rfl
@[simp] theorem finish_cap (k : RspKind) (s : State) : (finish k s).cap = s.cap := rfl
@[simp] theorem finish_host (k : RspKind) (s : State) : (finish k s).host = s.host := rfl
@[simp] theorem finish_lineIn (k : RspKind) (s : State) : (finish k s).lineIn = s.lineIn := rfl
@[simp] theorem finish_reads (k : RspKind) (s : State) : (finish k s).reads = s.reads := rfl
@[simp] theorem finish_trace (k : RspKind) (s : State) : (finish k s).trace = s.trace := rfl

/-! ### After the return (rows T19, T20) -/

@[simp] theorem deliver_params (s : State) : (deliver s).params = s.params := rfl
@[simp] theorem deliver_phase (s : State) : (deliver s).phase = .idle := rfl
@[simp] theorem deliver_byteIdx (s : State) : (deliver s).byteIdx = s.byteIdx := rfl
@[simp] theorem deliver_bitIdx (s : State) : (deliver s).bitIdx = s.bitIdx := rfl
@[simp] theorem deliver_elapsed (s : State) : (deliver s).elapsed = s.elapsed := rfl
@[simp] theorem deliver_op (s : State) : (deliver s).op = s.op := rfl
@[simp] theorem deliver_variant (s : State) : (deliver s).variant = s.variant := rfl
@[simp] theorem deliver_inited (s : State) : (deliver s).inited = s.inited := rfl
@[simp] theorem deliver_lineOE (s : State) : (deliver s).lineOE = s.lineOE := rfl
@[simp] theorem deliver_lineOut (s : State) : (deliver s).lineOut = s.lineOut := rfl
@[simp] theorem deliver_status (s : State) : (deliver s).status = s.status := rfl
@[simp] theorem deliver_raw (s : State) : (deliver s).raw = s.raw := rfl
@[simp] theorem deliver_sbit (s : State) : (deliver s).sbit = s.sbit := rfl
@[simp] theorem deliver_temp (s : State) : (deliver s).temp = s.temp := rfl
@[simp] theorem deliver_hum (s : State) : (deliver s).hum = s.hum := rfl
@[simp] theorem deliver_rsp (s : State) : (deliver s).rsp = some ⟨s.status, if s.phase = .done then dueData s else .nothing⟩ := rfl
@[simp] theorem deliver_due (s : State) : (deliver s).due = s.due := rfl
@[simp] theorem deliver_cap (s : State) : (deliver s).cap = s.cap := rfl
@[simp] theorem deliver_host (s : State) : (deliver s).host = s.host := rfl
@[simp] theorem deliver_lineIn (s : State) : (deliver s).lineIn = s.lineIn := rfl
@[simp] theorem deliver_reads (s : State) : (deliver s).reads = s.reads := rfl
@[simp] theorem deliver_trace (s : State) : (deliver s).trace = s.trace := rfl

/-! ### After the reset input (R230, R231) -/

@[simp] theorem resetBy_params (s : State) : (resetBy s).params = s.params := rfl
@[simp] theorem resetBy_phase (s : State) : (resetBy s).phase = .idle := rfl
@[simp] theorem resetBy_byteIdx (s : State) : (resetBy s).byteIdx = 0 := rfl
@[simp] theorem resetBy_bitIdx (s : State) : (resetBy s).bitIdx = 0 := rfl
@[simp] theorem resetBy_elapsed (s : State) : (resetBy s).elapsed = 0 := rfl
@[simp] theorem resetBy_op (s : State) : (resetBy s).op = .readSample := rfl
@[simp] theorem resetBy_variant (s : State) : (resetBy s).variant = .a := rfl
@[simp] theorem resetBy_inited (s : State) : (resetBy s).inited = false := rfl
@[simp] theorem resetBy_lineOE (s : State) : (resetBy s).lineOE = false := rfl
@[simp] theorem resetBy_lineOut (s : State) : (resetBy s).lineOut = true := rfl
@[simp] theorem resetBy_status (s : State) : (resetBy s).status = .ok := rfl
@[simp] theorem resetBy_raw (s : State) : (resetBy s).raw = ⟨0, 0, 0, 0, 0⟩ := rfl
@[simp] theorem resetBy_sbit (s : State) : (resetBy s).sbit = false := rfl
@[simp] theorem resetBy_temp (s : State) : (resetBy s).temp = 0 := rfl
@[simp] theorem resetBy_hum (s : State) : (resetBy s).hum = 0 := rfl
@[simp] theorem resetBy_rsp (s : State) : (resetBy s).rsp = none := rfl
@[simp] theorem resetBy_due (s : State) : (resetBy s).due = .nothing := rfl
@[simp] theorem resetBy_cap (s : State) : (resetBy s).cap = s.cap := rfl
@[simp] theorem resetBy_host (s : State) : (resetBy s).host = s.host := rfl
@[simp] theorem resetBy_lineIn (s : State) : (resetBy s).lineIn = s.lineIn := rfl
@[simp] theorem resetBy_reads (s : State) : (resetBy s).reads = s.reads := rfl
@[simp] theorem resetBy_trace (s : State) : (resetBy s).trace = s.trace := rfl

/-! ### Taking the inputs touches no register and no line operation (R35) -/

@[simp] theorem takeInputs_params (s : State) : (takeInputs s).params = s.params := by
  unfold takeInputs; repeat' split
  all_goals rfl
@[simp] theorem takeInputs_phase (s : State) : (takeInputs s).phase = s.phase := by
  unfold takeInputs; repeat' split
  all_goals rfl
@[simp] theorem takeInputs_byteIdx (s : State) : (takeInputs s).byteIdx = s.byteIdx := by
  unfold takeInputs; repeat' split
  all_goals rfl
@[simp] theorem takeInputs_bitIdx (s : State) : (takeInputs s).bitIdx = s.bitIdx := by
  unfold takeInputs; repeat' split
  all_goals rfl
@[simp] theorem takeInputs_elapsed (s : State) : (takeInputs s).elapsed = s.elapsed := by
  unfold takeInputs; repeat' split
  all_goals rfl
@[simp] theorem takeInputs_op (s : State) : (takeInputs s).op = s.op := by
  unfold takeInputs; repeat' split
  all_goals rfl
@[simp] theorem takeInputs_variant (s : State) : (takeInputs s).variant = s.variant := by
  unfold takeInputs; repeat' split
  all_goals rfl
@[simp] theorem takeInputs_inited (s : State) : (takeInputs s).inited = s.inited := by
  unfold takeInputs; repeat' split
  all_goals rfl
@[simp] theorem takeInputs_lineOE (s : State) : (takeInputs s).lineOE = s.lineOE := by
  unfold takeInputs; repeat' split
  all_goals rfl
@[simp] theorem takeInputs_lineOut (s : State) : (takeInputs s).lineOut = s.lineOut := by
  unfold takeInputs; repeat' split
  all_goals rfl
@[simp] theorem takeInputs_status (s : State) : (takeInputs s).status = s.status := by
  unfold takeInputs; repeat' split
  all_goals rfl
@[simp] theorem takeInputs_raw (s : State) : (takeInputs s).raw = s.raw := by
  unfold takeInputs; repeat' split
  all_goals rfl
@[simp] theorem takeInputs_sbit (s : State) : (takeInputs s).sbit = s.sbit := by
  unfold takeInputs; repeat' split
  all_goals rfl
@[simp] theorem takeInputs_temp (s : State) : (takeInputs s).temp = s.temp := by
  unfold takeInputs; repeat' split
  all_goals rfl
@[simp] theorem takeInputs_hum (s : State) : (takeInputs s).hum = s.hum := by
  unfold takeInputs; repeat' split
  all_goals rfl
@[simp] theorem takeInputs_due (s : State) : (takeInputs s).due = s.due := by
  unfold takeInputs; repeat' split
  all_goals rfl
@[simp] theorem takeInputs_lineIn (s : State) : (takeInputs s).lineIn = s.lineIn := by
  unfold takeInputs; repeat' split
  all_goals rfl
@[simp] theorem takeInputs_reads (s : State) : (takeInputs s).reads = s.reads := by
  unfold takeInputs; repeat' split
  all_goals rfl
@[simp] theorem takeInputs_trace (s : State) : (takeInputs s).trace = s.trace := by
  unfold takeInputs; repeat' split
  all_goals rfl
@[simp] theorem takeInputs_rsp (s : State) : (takeInputs s).rsp = none := by
  unfold takeInputs; repeat' split
  all_goals rfl
@[simp] theorem takeInputs_nextLevel (s : State) : (takeInputs s).nextLevel = s.nextLevel := by
  simp [State.nextLevel]
@[simp] theorem takeInputs_busy (s : State) : busy (takeInputs s) = busy s := by
  simp [busy]

/-! ### The index advance and the exit of a wait leave these alone (R112, R124) -/

@[simp] theorem advance_params (s : State) : (advance s).params = s.params := by
  unfold advance; repeat' split
  all_goals rfl
@[simp] theorem advance_op (s : State) : (advance s).op = s.op := by
  unfold advance; repeat' split
  all_goals rfl
@[simp] theorem advance_variant (s : State) : (advance s).variant = s.variant := by
  unfold advance; repeat' split
  all_goals rfl
@[simp] theorem advance_inited (s : State) : (advance s).inited = s.inited := by
  unfold advance; repeat' split
  all_goals rfl
@[simp] theorem advance_lineOE (s : State) : (advance s).lineOE = s.lineOE := by
  unfold advance; repeat' split
  all_goals rfl
@[simp] theorem advance_lineOut (s : State) : (advance s).lineOut = s.lineOut := by
  unfold advance; repeat' split
  all_goals rfl
@[simp] theorem advance_status (s : State) : (advance s).status = s.status := by
  unfold advance; repeat' split
  all_goals rfl
@[simp] theorem advance_raw (s : State) : (advance s).raw = s.raw := by
  unfold advance; repeat' split
  all_goals rfl
@[simp] theorem advance_sbit (s : State) : (advance s).sbit = s.sbit := by
  unfold advance; repeat' split
  all_goals rfl
@[simp] theorem advance_temp (s : State) : (advance s).temp = s.temp := by
  unfold advance; repeat' split
  all_goals rfl
@[simp] theorem advance_hum (s : State) : (advance s).hum = s.hum := by
  unfold advance; repeat' split
  all_goals rfl
@[simp] theorem advance_rsp (s : State) : (advance s).rsp = s.rsp := by
  unfold advance; repeat' split
  all_goals rfl
@[simp] theorem advance_due (s : State) : (advance s).due = s.due := by
  unfold advance; repeat' split
  all_goals rfl
@[simp] theorem advance_cap (s : State) : (advance s).cap = s.cap := by
  unfold advance; repeat' split
  all_goals rfl
@[simp] theorem advance_host (s : State) : (advance s).host = s.host := by
  unfold advance; repeat' split
  all_goals rfl
@[simp] theorem advance_lineIn (s : State) : (advance s).lineIn = s.lineIn := by
  unfold advance; repeat' split
  all_goals rfl
@[simp] theorem advance_reads (s : State) : (advance s).reads = s.reads := by
  unfold advance; repeat' split
  all_goals rfl
@[simp] theorem advance_trace (s : State) : (advance s).trace = s.trace := by
  unfold advance; repeat' split
  all_goals rfl
@[simp] theorem waitExit_params (k : WaitId) (s : State) : (waitExit k s).params = s.params := by
  cases k <;> simp [waitExit]
@[simp] theorem waitExit_op (k : WaitId) (s : State) : (waitExit k s).op = s.op := by
  cases k <;> simp [waitExit]
@[simp] theorem waitExit_variant (k : WaitId) (s : State) : (waitExit k s).variant = s.variant := by
  cases k <;> simp [waitExit]
@[simp] theorem waitExit_inited (k : WaitId) (s : State) : (waitExit k s).inited = s.inited := by
  cases k <;> simp [waitExit]
@[simp] theorem waitExit_lineOE (k : WaitId) (s : State) : (waitExit k s).lineOE = s.lineOE := by
  cases k <;> simp [waitExit]
@[simp] theorem waitExit_lineOut (k : WaitId) (s : State) : (waitExit k s).lineOut = s.lineOut := by
  cases k <;> simp [waitExit]
@[simp] theorem waitExit_status (k : WaitId) (s : State) : (waitExit k s).status = s.status := by
  cases k <;> simp [waitExit]
@[simp] theorem waitExit_raw (k : WaitId) (s : State) : (waitExit k s).raw = s.raw := by
  cases k <;> simp [waitExit]
@[simp] theorem waitExit_sbit (k : WaitId) (s : State) : (waitExit k s).sbit = s.sbit := by
  cases k <;> simp [waitExit]
@[simp] theorem waitExit_temp (k : WaitId) (s : State) : (waitExit k s).temp = s.temp := by
  cases k <;> simp [waitExit]
@[simp] theorem waitExit_hum (k : WaitId) (s : State) : (waitExit k s).hum = s.hum := by
  cases k <;> simp [waitExit]
@[simp] theorem waitExit_rsp (k : WaitId) (s : State) : (waitExit k s).rsp = s.rsp := by
  cases k <;> simp [waitExit]
@[simp] theorem waitExit_due (k : WaitId) (s : State) : (waitExit k s).due = s.due := by
  cases k <;> simp [waitExit]
@[simp] theorem waitExit_cap (k : WaitId) (s : State) : (waitExit k s).cap = s.cap := by
  cases k <;> simp [waitExit]
@[simp] theorem waitExit_host (k : WaitId) (s : State) : (waitExit k s).host = s.host := by
  cases k <;> simp [waitExit]
@[simp] theorem waitExit_lineIn (k : WaitId) (s : State) : (waitExit k s).lineIn = s.lineIn := by
  cases k <;> simp [waitExit]
@[simp] theorem waitExit_reads (k : WaitId) (s : State) : (waitExit k s).reads = s.reads := by
  cases k <;> simp [waitExit]
@[simp] theorem waitExit_trace (k : WaitId) (s : State) : (waitExit k s).trace = s.trace := by
  cases k <;> simp [waitExit]

/-! ### Entering a wait leaves these alone (R116) -/

@[simp] theorem enterWait_params (k : WaitId) (s : State) : (enterWait k s).params = s.params := by
  unfold enterWait; split <;> rfl
@[simp] theorem enterWait_op (k : WaitId) (s : State) : (enterWait k s).op = s.op := by
  unfold enterWait; split <;> rfl
@[simp] theorem enterWait_variant (k : WaitId) (s : State) : (enterWait k s).variant = s.variant := by
  unfold enterWait; split <;> rfl
@[simp] theorem enterWait_inited (k : WaitId) (s : State) : (enterWait k s).inited = s.inited := by
  unfold enterWait; split <;> rfl
@[simp] theorem enterWait_lineOE (k : WaitId) (s : State) : (enterWait k s).lineOE = s.lineOE := by
  unfold enterWait; split <;> rfl
@[simp] theorem enterWait_lineOut (k : WaitId) (s : State) : (enterWait k s).lineOut = s.lineOut := by
  unfold enterWait; split <;> rfl
@[simp] theorem enterWait_status (k : WaitId) (s : State) : (enterWait k s).status = s.status := by
  unfold enterWait; split <;> rfl
@[simp] theorem enterWait_raw (k : WaitId) (s : State) : (enterWait k s).raw = s.raw := by
  unfold enterWait; split <;> rfl
@[simp] theorem enterWait_sbit (k : WaitId) (s : State) : (enterWait k s).sbit = s.sbit := by
  unfold enterWait; split <;> rfl
@[simp] theorem enterWait_temp (k : WaitId) (s : State) : (enterWait k s).temp = s.temp := by
  unfold enterWait; split <;> rfl
@[simp] theorem enterWait_hum (k : WaitId) (s : State) : (enterWait k s).hum = s.hum := by
  unfold enterWait; split <;> rfl
@[simp] theorem enterWait_rsp (k : WaitId) (s : State) : (enterWait k s).rsp = s.rsp := by
  unfold enterWait; split <;> rfl
@[simp] theorem enterWait_due (k : WaitId) (s : State) : (enterWait k s).due = s.due := by
  unfold enterWait; split <;> rfl
@[simp] theorem enterWait_cap (k : WaitId) (s : State) : (enterWait k s).cap = s.cap := by
  unfold enterWait; split <;> rfl
@[simp] theorem enterWait_host (k : WaitId) (s : State) : (enterWait k s).host = s.host := by
  unfold enterWait; split <;> rfl
@[simp] theorem enterWait_lineIn (k : WaitId) (s : State) : (enterWait k s).lineIn = s.lineIn := by
  unfold enterWait; split <;> rfl
@[simp] theorem enterWait_reads (k : WaitId) (s : State) : (enterWait k s).reads = s.reads := by
  unfold enterWait; split <;> rfl
@[simp] theorem enterWait_trace (k : WaitId) (s : State) : (enterWait k s).trace = s.trace := by
  unfold enterWait; split <;> rfl
@[simp] theorem enterWait_byteIdx (k : WaitId) (s : State) : (enterWait k s).byteIdx = s.byteIdx := by
  unfold enterWait; split <;> rfl
@[simp] theorem enterWait_bitIdx (k : WaitId) (s : State) : (enterWait k s).bitIdx = s.bitIdx := by
  unfold enterWait; split <;> rfl

end Sys2Proof.Machine
end

