-- ==== Sys2Proof/Laws/Ops.lean ====
section
/-! SUPPORT. One lemma for each shared operation that says everything it can do; what follows cites these instead of unfolding. -/

namespace Sys2Proof.Machine

/-! ### Outcomes -/

theorem andThen_eq_next {r : Result} {k : State → Result} {t : State} :
    andThen r k = .next t ↔ ∃ u, r = .next u ∧ k u = .next t := by
  cases r <;> simp [andThen]

@[simp] theorem andThen_next (s : State) (k : State → Result) : andThen (.next s) k = k s := rfl

/-! ### The line (R57, R58) -/

/-- `Wr` completes exactly while the engine drives (R57). -/
theorem wr_eq_next {l : Level} {s t : State} {k : State → Result} :
    wr l s k = .next t ↔
      s.lineOE = true ∧ k { s with lineOut := l, trace := .wr l :: s.trace } = .next t := by
  unfold wr; split <;> simp_all

/-- `Rd` completes exactly while the line is released (R58). -/
theorem rd_eq_next {s t : State} {k : Level → State → Result} :
    rd s k = .next t ↔ s.lineOE = false ∧ k s.nextLevel s.afterRead = .next t := by
  unfold rd; split <;> simp_all

theorem rd_released {s : State} (h : s.lineOE = false) (k : Level → State → Result) :
    rd s k = k s.nextLevel s.afterRead := by simp [rd, h]

theorem wr_driven {s : State} (h : s.lineOE = true) (l : Level) (k : State → Result) :
    wr l s k = k { s with lineOut := l, trace := .wr l :: s.trace } := by simp [wr, h]

/-- A listed answer is the level read. -/
theorem nextLevel_cons {s : State} {v : Level} {rest : List Level} (h : s.lineIn = v :: rest) :
    s.nextLevel = v := by simp [State.nextLevel, h]

/-! ### The RAW space (R13, R52) -/

/-- A read after a write of the same byte. -/
@[simp] theorem Raw.get_put_same (r : Raw) (i : Fin 5) (v : Byte) : (r.put i v).get i = v := by
  fin_cases i <;> rfl

/-- A write leaves every other byte alone. -/
theorem Raw.get_put_other (r : Raw) {i j : Fin 5} (v : Byte) (h : j ≠ i) :
    (r.put i v).get j = r.get j := by
  fin_cases i <;> fin_cases j <;> first | rfl | exact absurd rfl h

/-- One bit of a byte written, the others unchanged (R13). -/
theorem getLsbD_withBit (x : Byte) (k : Fin 8) (b : Bool) (j : Nat) (hj : j < 8) :
    (withBit x k b).getLsbD j = if j = k.val then b else x.getLsbD j := by
  obtain ⟨k, hk⟩ := k
  rcases Nat.lt_trichotomy j k with h | h | h
  · have : j ≠ k := by omega
    cases b <;> simp [withBit, hj, h, this]
  · subst h
    cases b <;> simp [withBit, hj]
  · have h1 : ¬ j < k := by omega
    have h2 : ¬ j - k = 0 := by omega
    have h3 : j ≠ k := by omega
    cases b <;> simp [withBit, hj, h1, h2, h3]

/-- The bits of RAW after a bit was stored (R13, R123). -/
theorem Raw.getLsbD_putBit (r : Raw) (i j : Fin 5) (k : Fin 8) (b : Bool) (n : Nat) (hn : n < 8) :
    ((r.putBit i k b).get j).getLsbD n = if j = i ∧ n = k.val then b else (r.get j).getLsbD n := by
  unfold Raw.putBit
  by_cases h : j = i
  · subst h; rw [Raw.get_put_same, getLsbD_withBit _ _ _ _ hn]; simp
  · rw [Raw.get_put_other _ _ h]; simp [h]

@[simp] theorem Raw.frame_ofFrame (f : BitVec 40) : (Raw.ofFrame f).frame = f := by
  apply BitVec.eq_of_getLsbD_eq
  intro i hi
  simp only [Raw.frame, Raw.ofFrame, BitVec.getLsbD_append, BitVec.getLsbD_extractLsb']
  interval_cases i <;> rfl

/-! ### Waits (R112, R116) -/

/-- What a read of wait `k` does (rows T7, T8). -/
theorem waitRead_released {k : WaitId} {s : State} (h : s.lineOE = false) :
    waitRead k s = .next (if s.nextLevel = waitLevel k then { s.afterRead with phase := .tk k }
      else waitExit k s.afterRead) := rd_released h _

/-- A read of wait `k` completes in one of two ways (rows T7, T8). -/
theorem waitRead_cases {k : WaitId} {s t : State} (h : waitRead k s = .next t) :
    s.lineOE = false ∧
      ((s.nextLevel = waitLevel k ∧ t = { s.afterRead with phase := .tk k }) ∨
       (s.nextLevel ≠ waitLevel k ∧ t = waitExit k s.afterRead)) := by
  obtain ⟨ho, h⟩ := rd_eq_next.1 h
  refine ⟨ho, ?_⟩
  split at h <;> simp_all

/-- A tick of wait `k` completes in one of two ways (rows T9, T10). -/
theorem waitTick_cases {k : WaitId} {s t : State} (h : waitTick k s = .next t) :
    (s.elapsed + s.params.tickUs ≤ ceiling s.params k ∧
      t = { delayUs s.params.tickUs s with elapsed := s.elapsed + s.params.tickUs, phase := .rd k }) ∨
    (ceiling s.params k < s.elapsed + s.params.tickUs ∧
      t = raise .timeout { delayUs s.params.tickUs s with elapsed := s.elapsed + s.params.tickUs }) := by
  unfold waitTick at h
  split at h <;> simp_all

@[simp] theorem enterWait_rd {k : WaitId} {s : State} (h : s.phase = .rd k) : enterWait k s = s := by
  simp [enterWait, h]

theorem waitStep_rd {k : WaitId} {s : State} (h : s.phase = .rd k) : waitStep k s = waitRead k s := by
  simp [waitStep, h]

theorem waitStep_tk {k : WaitId} {s : State} (h : s.phase = .tk k) : waitStep k s = waitTick k s := by
  simp [waitStep, h]

/-- A micro-step of wait `k` is one of its reads or one of its ticks (R116). -/
theorem waitStep_cases {k : WaitId} {s t : State} (h : waitStep k s = .next t) :
    (s.phase = .tk k ∧ waitTick k s = .next t) ∨ (s.phase ≠ .tk k ∧ waitRead k (enterWait k s) = .next t) := by
  unfold waitStep at h
  split at h <;> simp_all

/-! ### Commands (R35) -/

/-- A command is taken when the engine is idle and ignored while it is busy (R35). -/
theorem accepted_cases {s t : State} {k : State → State} (h : accepted s k = .next t) :
    (s.phase ≠ .idle ∧ t = s) ∨ (s.phase = .idle ∧ t = k (accept s)) := by
  unfold accepted busy at h
  split at h <;> simp_all

theorem accepted_idle {s : State} (h : s.phase = .idle) (k : State → State) :
    accepted s k = .next (k (accept s)) := by simp [accepted, busy, h]

theorem accepted_busy {s : State} (h : s.phase ≠ .idle) (k : State → State) :
    accepted s k = .next s := by simp [accepted, busy, h]

/-! ### The frame check (R126) -/

/-- What the frame check does (rows T13, T14, T15). -/
theorem checkFrame_cases {s t : State} (h : checkFrame s = .next t) :
    (sumOk s.raw = true ∧ s.op = .readRaw ∧ t = finish .raw s) ∨
    (sumOk s.raw = true ∧ s.op = .readSample ∧ t = { s with phase := .extract }) ∨
    (sumOk s.raw = false ∧ t = raise .checksumError s) := by
  unfold checkFrame at h
  split at h
  · cases ho : s.op <;> simp_all
  · simp_all

/-! ### Runs -/

theorem runs_zero (s : State) : runs 0 s = .next s := rfl

theorem runs_succ (n : Nat) (s : State) : runs (n + 1) s = andThen (step s) (runs n) := rfl

theorem runs_succ_of_next {n : Nat} {s t : State} (h : step s = .next t) : runs (n + 1) s = runs n t := by
  rw [runs_succ, h]; rfl

/-- A run in two parts. -/
theorem runs_add (m n : Nat) (s : State) : runs (m + n) s = andThen (runs m s) (runs n) := by
  induction m generalizing s with
  | zero => simp [runs_zero]
  | succ m ih =>
    rw [Nat.succ_add, runs_succ, runs_succ]
    cases h : step s with
    | next t => simpa using ih t
    | fault e => rfl
    | refused e => rfl

theorem runs_trans {m n : Nat} {s t u : State} (h : runs m s = .next t) (h' : runs n t = .next u) :
    runs (m + n) s = .next u := by rw [runs_add, h]; exact h'

/-! ### Steps with nothing presented by the host -/

/-- With no host event, a step is what PHASE selects. -/
theorem action_quiet {s : State} (h : s.host = []) : action s = select s.phase := by simp [action, h]

theorem takeInputs_quiet {s : State} (h : s.host = []) : takeInputs s = { s with rsp := none } := by
  simp [takeInputs, h]

end Sys2Proof.Machine
end

