-- ==== Sys2Proof/Laws/PerInstr.lean ====
section
/-! SUPPORT. Statements about every instruction as syntax, one lemma for each constructor. -/

namespace Sys2Proof.Laws

/-- How many bytes an instruction's word takes by its format (spec/30_encoding.md R80, R87, R94). -/
def WordForm.width : Format → Option Nat
  | .cmd3 => some 1
  | .frame40 => some 5
  | .microOp => none

/-- The encoder gives an instruction exactly the bytes of its format: one for a command, five for a
frame, none for a micro-operation. -/
def WordForm.Statement (i : Instr) : Prop :=
  (encodeBytes i).map List.length = WordForm.width i.format

theorem WordForm.init : ∀ x, WordForm.Statement (.init x) := by intros; rfl

theorem WordForm.readSample : ∀ x, WordForm.Statement (.readSample x) := by intros; rfl

theorem WordForm.readRaw : ∀ x, WordForm.Statement (.readRaw x) := by intros; rfl

theorem WordForm.rsvd : ∀ x, WordForm.Statement (.rsvd x) := by intros; rfl

theorem WordForm.frame40 : ∀ x y z u v, WordForm.Statement (.frame40 x y z u v) := by intros; rfl

theorem WordForm.frame40A : ∀ x y z u v, WordForm.Statement (.frame40A x y z u v) := by intros; rfl

theorem WordForm.frame40B : ∀ x y z u, WordForm.Statement (.frame40B x y z u) := by intros; rfl

theorem WordForm.start : WordForm.Statement (.start) := rfl

theorem WordForm.wait : ∀ x, WordForm.Statement (.wait x) := by intros; rfl

theorem WordForm.w1 : WordForm.Statement (.w1) := rfl

theorem WordForm.w2 : WordForm.Statement (.w2) := rfl

theorem WordForm.w3 : WordForm.Statement (.w3) := rfl

theorem WordForm.w4 : WordForm.Statement (.w4) := rfl

theorem WordForm.w5 : WordForm.Statement (.w5) := rfl

theorem WordForm.response : WordForm.Statement (.response) := rfl

theorem WordForm.rdbit : WordForm.Statement (.rdbit) := rfl

theorem WordForm.rdframe : WordForm.Statement (.rdframe) := rfl

theorem WordForm.checksum : WordForm.Statement (.checksum) := rfl

theorem WordForm.extractTemperature : WordForm.Statement (.extractTemperature) := rfl

theorem WordForm.extractHumidity : WordForm.Statement (.extractHumidity) := rfl

theorem WordForm.rangeCheck : WordForm.Statement (.rangeCheck) := rfl

end Sys2Proof.Laws
end

