-- ==== Sys2Proof/Tests/Slice0.lean ====
section
/-! SUPPORT. The model's own tests. Expected results are those of spec/95_test_vectors.md (its ids stand in the comments) or of the
spec's rules; a `witness_` theorem shows data that meet the hypotheses of the obligation it names. -/

namespace Sys2Proof.Tests

open Sys2Proof Sys2Proof.Machine

/-! ### Helpers -/

/-- The parameters of the vectors, with the reference ranges (95_test_vectors.md section 1). -/
def vec : Params where
  tStartLowMsA := 50
  tStartLowMsB := 20
  ceilAckUs := 60
  ceilRespUs := 100
  ceilBitLowUs := 70
  tSampleUs := 35
  ceilBitHighUs := 100
  tickUs := 1
  tStartHighUs := 30
  tMinX10A := 0
  tMaxX10A := 500
  hMinX10A := 200
  hMaxX10A := 900
  tMinX10B := -400
  tMaxX10B := 800
  hMinX10B := 0
  hMaxX10B := 1000

/-- The state after reset with those parameters. -/
def fresh : State := { State.reset with params := vec }

/-- An initialised engine at a PHASE, the line released. -/
def at_ (p : Phase) : State := { fresh with inited := true, phase := p }

/-- The same, the line driven. -/
def driven (p : Phase) : State := { at_ p with lineOE := true }

/-- One field of a next state. -/
def after {α : Type} (r : Result) (f : State → α) : Option α :=
  match r with
  | .next t => some (f t)
  | .fault _ => none
  | .refused _ => none

/-! ### Well-formedness: every check with a term it refuses -/

theorem test_command_is_well_formed : (Instr.init .a).wellFormed = true := by decide

theorem test_frame_is_well_formed : (Instr.frame40 0 0 0 0 0).wellFormed = true := by decide

/-- R94: a micro-operation has no word. -/
theorem test_micro_operation_is_ill_formed : Instr.start.wellFormed = false := by decide

theorem test_micro_operation_has_no_bytes : encodeBytes .start = none := by decide

/-! ### Decoding: words written out from the encodings -/

/-- V-CMD1, V-CMD2. -/
theorem test_decode_init : decodeBytes [0x01#8] = .ok (.init .a) ∧ decodeBytes [0x05#8] = .ok (.init .b) := by decide

/-- V-CMD3, V-CMD4. -/
theorem test_decode_read_sample :
    decodeBytes [0x02#8] = .ok (.readSample false) ∧ decodeBytes [0x06#8] = .ok (.readSample true) := by decide

/-- V-CMD5, V-CMD6. -/
theorem test_decode_read_raw :
    decodeBytes [0x03#8] = .ok (.readRaw false) ∧ decodeBytes [0x07#8] = .ok (.readRaw true) := by decide

/-- V-CMD7, V-CMD8. -/
theorem test_decode_rsvd : decodeBytes [0x00#8] = .ok (.rsvd false) ∧ decodeBytes [0x04#8] = .ok (.rsvd true) := by decide

/-- V-FR1. -/
theorem test_decode_frame :
    decodeBytes [0x2D#8, 0x00#8, 0x1A#8, 0x00#8, 0x47#8] = .ok (.frame40 45#8 0#8 26#8 0#8 71#8) := by decide

/-- R88 on the bytes of V-CK11. -/
theorem test_decode_frame_a :
    decodeBytesAs (.fields .a) [45#8, 7#8, 26#8, 9#8, 87#8] = .ok (.frame40A 45#8 7#8 26#8 9#8 87#8) := by decide

/-- V-FR5 under R89: humidity 500, sign set, magnitude 101. -/
theorem test_decode_frame_b :
    decodeBytesAs (.fields .b) [0x01#8, 0xF4#8, 0x80#8, 0x65#8, 0xDA#8] =
      .ok (.frame40B 500#16 true 101#15 0xDA#8) := by decide

/-- R92(d): the sign with magnitude 0 is a legal frame. -/
theorem test_decode_negative_zero :
    decodeBytesAs (.fields .b) [0x00#8, 0x00#8, 0x80#8, 0x00#8, 0x80#8] =
      .ok (.frame40B 0#16 true 0#15 0x80#8) := by decide

theorem test_decode_refuses :
    decodeBytes [] = .error .wrongLength ∧ decodeBytes [1#8, 2#8] = .error .wrongLength ∧
      decodeBytes [0x0A#8] = .error .bitsAboveCommand := by decide

theorem test_encode_frame_b :
    encodeBytes (.frame40B 500#16 true 101#15 0xDA#8) = some [0x01#8, 0xF4#8, 0x80#8, 0x65#8, 0xDA#8] := by decide

/-! ### Commands -/

/-- V-IN2. -/
theorem test_init_succeeds :
    after (exec (.init .b) { fresh with cap := 0b11111#5 }) (fun t => (t.variant, t.inited, t.status)) =
      some (.b, true, .ok) := by decide

/-- V-IN4: VARIANT stays B. -/
theorem test_init_without_direction :
    after (exec (.init .a) { at_ .idle with variant := .b, cap := 0b11110#5 })
      (fun t => (t.variant, t.inited, t.status)) = some (.b, false, .initErr) := by decide

/-- V-P1, command 3: the operation is latched. -/
theorem test_read_sample_starts :
    after (exec (.readSample true) (at_ .idle)) (fun t => (t.op, t.phase, t.trace)) =
      some (.readSample, .stDir, []) := by decide

/-- V-P3, command 1. -/
theorem test_read_sample_uninitialised :
    after (exec (.readSample false) fresh) (fun t => (t.status, t.phase, t.trace)) = some (.fail, .fail, []) := by
  decide

/-- V-P1, command 2. -/
theorem test_read_raw_starts :
    after (exec (.readRaw false) (at_ .idle)) (fun t => (t.op, t.phase)) = some (.readRaw, .stDir) := by decide

/-- V-IN7. -/
theorem test_rsvd_fails :
    after (exec (.rsvd false) (at_ .idle)) (fun t => (t.status, t.phase, t.inited, t.variant)) =
      some (.fail, .fail, true, .a) := by decide

/-- R35: a command presented while the engine is in W1 is not taken. -/
theorem test_command_waits_while_busy :
    after (step { at_ (.rd .w1) with host := [.command 0b001#3 0#5], lineIn := [true] })
      (fun t => (t.phase, t.host, t.cap)) = some (.tk .w1, [.command 0b001#3 0#5], 0#5) := by decide

/-- R230: reset in the middle of START. -/
theorem test_reset_releases_the_line :
    after (step { driven .stHigh with lineOut := false, host := [.reset] })
      (fun t => (t.phase, t.inited, t.lineOE, t.lineOut, t.rsp)) = some (.idle, false, false, true, none) := by decide

/-! ### START -/

/-- V-ST1: the register sequence and the low hold of Variant A. -/
theorem test_start_drives :
    after (exec .start (at_ .stDir)) (fun t => (t.lineOE, t.lineOut, t.trace)) = some (true, true, [.dir true]) := by
  decide

/-- V-ST2: the low hold of Variant B. -/
theorem test_start_holds_low :
    after (exec .start { driven .stHold with variant := .b }) (fun t => (t.trace, now t.trace)) =
      some ([.dlyMs 20], 20000) := by decide

/-! ### Waits -/

/-- V-W1's first read: the line still high. -/
theorem test_w1_polls :
    after (exec .w1 { at_ (.rd .w1) with lineIn := [true, false] }) (fun t => (t.phase, t.lineIn, t.elapsed)) =
      some (.tk .w1, [false], 0) := by decide

/-- V-W3, V-PR5: a change seen at ELAPSED = C exactly is accepted. -/
theorem test_w1_accepts_at_the_ceiling :
    after (exec .w1 { at_ (.rd .w1) with elapsed := 60, lineIn := [false] }) (fun t => (t.phase, t.elapsed)) =
      some (.rd .w2, 0) := by decide

/-- V-W6: the last tick of a line stuck low. -/
theorem test_w2_times_out :
    after (exec .w2 { at_ (.tk .w2) with elapsed := 100 }) (fun t => (t.phase, t.status, t.elapsed, t.trace)) =
      some (.fail, .timeout, 101, [.dlyUs 1]) := by decide

theorem test_w2_ends_on_high :
    after (exec .w2 { at_ (.rd .w2) with lineIn := [true] }) (fun t => t.phase) = some (.rd .w3) := by decide

/-- R119: the exit of W3 sets the indices to the first bit. -/
theorem test_w3_enters_the_frame :
    after (exec .w3 { at_ (.rd .w3) with lineIn := [false] }) (fun t => (t.phase, t.byteIdx, t.bitIdx)) =
      some (.rd .w4, 0, 7) := by decide

/-- V-BIT11: W4 returns at its first read. -/
theorem test_w4_ends_on_high :
    after (exec .w4 { at_ (.rd .w4) with lineIn := [true] }) (fun t => t.phase) = some .bDly := by decide

theorem test_w4_ticks_at_the_ceiling :
    after (exec .w4 { at_ (.tk .w4) with elapsed := 69 }) (fun t => (t.phase, t.elapsed)) = some (.rd .w4, 70) := by
  decide

/-- The index sequence of 95_test_vectors.md section 3.7: after bit 0 of byte 0, bit 7 of byte 1. -/
theorem test_w5_advances_to_the_next_byte :
    after (exec .w5 { at_ (.rd .w5) with lineIn := [false] }) (fun t => (t.phase, t.byteIdx, t.bitIdx)) =
      some (.rd .w4, 1, 7) := by decide

/-- V-BIT10: the fall comes too late. -/
theorem test_w5_times_out :
    after (exec .w5 { at_ (.tk .w5) with elapsed := 100 }) (fun t => (t.phase, t.status)) = some (.fail, .timeout) := by
  decide

/-- V-P4, command 1: the sixty-first tick. -/
theorem test_wait_times_out :
    after (exec (.wait .w1) { at_ (.tk .w1) with elapsed := 60 }) (fun t => (t.phase, t.status)) =
      some (.fail, .timeout) := by decide

theorem test_wait_enters_its_first_micro_step :
    after (exec (.wait .w4) { at_ .idle with elapsed := 9, lineIn := [false] }) (fun t => (t.phase, t.elapsed)) =
      some (.tk .w4, 0) := by decide

theorem test_response_goes_on_in_w2 :
    after (exec .response { at_ (.tk .w2) with elapsed := 7 }) (fun t => (t.phase, t.elapsed)) =
      some (.rd .w2, 8) := by decide

theorem test_response_ends_in_the_first_bit :
    after (exec .response { at_ (.rd .w3) with lineIn := [false] }) (fun t => (t.phase, t.bitIdx)) =
      some (.rd .w4, 7) := by decide

/-! ### Bits -/

/-- V-FR3: the first bit received is bit 7 of byte 0. -/
theorem test_rdbit_samples_bit_seven :
    after (exec .rdbit { at_ .bSmp with bitIdx := 7, lineIn := [true] }) (fun t => (t.raw.b0, t.sbit, t.phase)) =
      some (0x80#8, true, .rd .w5) := by decide

/-- A 0 bit clears the bit it is stored in and no other. -/
theorem test_rdbit_clears_one_bit :
    after (exec .rdbit { at_ .bSmp with byteIdx := 2, bitIdx := 3, raw := ⟨255, 255, 255, 255, 255⟩, lineIn := [false] })
      (fun t => t.raw) = some ⟨255, 255, 0xF7#8, 255, 255⟩ := by decide

/-- The last W5 ends the frame. -/
theorem test_rdframe_ends_in_check :
    after (exec .rdframe { at_ (.rd .w5) with byteIdx := 4, lineIn := [false] }) (fun t => t.phase) = some .check := by
  decide

theorem test_rdframe_starts_at_the_first_bit :
    after (exec .rdframe { at_ .idle with byteIdx := 3, bitIdx := 2, lineIn := [false] })
      (fun t => (t.byteIdx, t.bitIdx, t.phase)) = some (0, 7, .tk .w4) := by decide

/-- R58, D23: a read while driving. -/
theorem test_read_while_driving : exec .w1 (driven (.rd .w1)) = .fault .readWhileDriving := by rfl

/-! ### CHECKSUM -/

/-- V-CK6: the sum is taken modulo 256. -/
theorem test_checksum_wraps :
    after (exec .checksum { at_ .check with raw := ⟨255, 255, 255, 255, 252⟩, op := .readRaw })
      (fun t => (t.phase, t.status, t.due)) = some (.done, .ok, .raw) := by decide

/-- V-CK9. -/
theorem test_checksum_error :
    after (exec .checksum { at_ .check with raw := ⟨45, 0, 26, 0, 72⟩ }) (fun t => (t.phase, t.status)) =
      some (.fail, .checksum) := by decide

/-- V-CK3, as a frame word. -/
theorem test_frame_error :
    after (exec (.frame40 0x02#8 0x8C#8 0x00#8 0xC2#8 0x51#8) (at_ .check)) (fun t => (t.phase, t.status)) =
      some (.fail, .checksum) := by decide

/-- V-S8, V-CK11: Variant A's unused bytes are summed; READ_SAMPLE goes on. -/
theorem test_frame_passes :
    after (exec (.frame40 45#8 7#8 26#8 9#8 87#8) (at_ .check)) (fun t => (t.phase, t.raw.b4)) =
      some (.extract, 87#8) := by decide

/-! ### Extraction -/

/-- V-XT6: unsigned, not −56. -/
theorem test_temperature_a : (temperature .a 200#8 0#8, tX10 .a 200#8 0#8) = (0x43480000#32, 2000) := by decide

/-- V-XT17, V-XT18, V-XT13: binary32 rounding. -/
theorem test_temperature_b :
    temperature .b 0x00#8 0x01#8 = 0x3DCCCCCD#32 ∧ temperature .b 0x00#8 0x03#8 = 0x3E99999A#32 ∧
      temperature .b 0x7F#8 0xFF#8 = 0x454CCB33#32 := by decide

/-- V-XT9, as the instruction. -/
theorem test_extract_temperature :
    after (exec .extractTemperature { at_ .extract with variant := .b, raw := ⟨0, 0, 0x80, 0x65, 0⟩ })
      (fun t => (t.temp, t.phase)) = some (0xC121999A#32, .extract) := by decide

/-- V-XT14: sign and magnitude, not −0.1. -/
theorem test_extract_temperature_all_ones :
    after (exec .extractTemperature { at_ .extract with variant := .b, raw := ⟨0, 0, 0xFF, 0xFF, 0⟩ }) (fun t => t.temp) =
      some 0xC54CCB33#32 := by decide

/-- V-XH8: bit 7 of byte 0 is magnitude, not sign. -/
theorem test_extract_humidity :
    after (exec .extractHumidity { at_ .extract with variant := .b, raw := ⟨0x80, 0x00, 0, 0, 0⟩ })
      (fun t => (t.hum, t.phase)) = some (0x454CCCCD#32, .range) := by decide

/-- V-XH2. -/
theorem test_extract_humidity_a :
    after (exec .extractHumidity { at_ .extract with raw := ⟨45, 255, 0, 0, 0⟩ }) (fun t => t.hum) =
      some 0x42340000#32 := by decide

/-- V-P6, command 5: the fractional bytes are ignored. -/
theorem test_frame_a :
    after (exec (.frame40A 45#8 7#8 26#8 9#8 87#8) (at_ .check)) (fun t => (t.temp, t.hum, t.raw.b1)) =
      some (0x41D00000#32, 0x42340000#32, 7#8) := by decide

/-- V-P6, command 2. -/
theorem test_frame_b :
    after (exec (.frame40B 500#16 true 101#15 0xDA#8) (at_ .check)) (fun t => (t.temp, t.hum, t.raw)) =
      some (0xC121999A#32, 0x42480000#32, ⟨0x01, 0xF4, 0x80, 0x65, 0xDA⟩) := by decide

/-- R158: the tenths are read back from the binary32 patterns of V-XT14 and V-XT11. -/
theorem test_tenths : tenthsOf 0xC54CCB33#32 = -32767 ∧ tenthsOf 0x80000000#32 = 0 := by decide

/-! ### RANGE_CHECK -/

/-- V-RG3 (`0x42480000` is 50.0, `0x42340000` is 45.0): the bound is inclusive. -/
theorem test_range_bound_is_inclusive :
    after (exec .rangeCheck { at_ .range with temp := 0x42480000#32, hum := 0x42340000#32 })
      (fun t => (t.phase, t.status, t.due)) = some (.done, .ok, .pair) := by decide

/-- V-RG2 (`0x424C0000` is 51.0). -/
theorem test_range_rejects :
    after (exec .rangeCheck { at_ .range with temp := 0x424C0000#32, hum := 0x42340000#32 })
      (fun t => (t.phase, t.status)) = some (.fail, .fail) := by decide

/-- V-RG1, V-RG15, V-RG10 and V-RG11 on their tenths. -/
theorem test_range_vectors :
    (inRange vec .a 260 450, inRange vec .b 0 500, inRange vec .b (-400) 0, inRange vec .b (-401) 500) =
      (true, true, true, false) := by decide

/-! ### Completion -/

/-- V-P1, command 2: the raw response. -/
theorem test_raw_response :
    after (step { at_ .done with raw := ⟨0x2D, 0, 0x1A, 0, 0x47⟩, due := .raw }) (fun t => (t.phase, t.rsp)) =
      some (.idle, some ⟨.ok, .raw 0x2D001A0047#40⟩) := by decide

/-- V-P4: a timed-out command delivers no data. -/
theorem test_error_response :
    after (step { at_ .fail with status := .timeout, due := .raw }) (fun t => (t.phase, t.rsp)) =
      some (.idle, some ⟨.timeout, .nothing⟩) := by decide

/-- R36: the response is a pulse. -/
theorem test_response_is_a_pulse :
    after (step { at_ .idle with rsp := some ⟨.ok, .nothing⟩ }) (fun t => (t.phase, t.rsp)) = some (.idle, none) := by
  decide

/-! ### Witnesses: data that meet the hypotheses of the obligations

Each names its obligation; where the obligation has several clauses there is one datum for each, at
the boundary of the clause's range. -/

theorem witness_EncodeThenDecodeGivesTheInstruction :
    (Instr.frame40B 0xFFFF#16 true 0x7FFF#15 0xFF#8).wellFormed = true ∧ (Instr.rsvd true).wellFormed = true := by
  decide

theorem witness_DecodeThenEncodeGivesTheBytes :
    decodeBytesAs (.fields .b) [0xFF#8, 0xFF#8, 0xFF#8, 0xFF#8, 0xFF#8] =
      .ok (.frame40B 0xFFFF#16 true 0x7FFF#15 0xFF#8) ∧
    decodeBytesAs (.fields .a) [0x07#8] = .ok (.readRaw true) := by decide

theorem witness_InitSucceedsWithAllCapabilities :
    let s : State := { fresh with cap := 0b11111#5 }
    s.phase = .idle ∧ s.cap = 0b11111#5 := by decide

/-- Each capability missing alone (V-IN8). -/
theorem witness_InitFailsWithoutACapability :
    fresh.phase = .idle ∧ (0b11110#5).getLsbD 0 = false ∧ (0b11101#5).getLsbD 1 = false ∧
      (0b11011#5).getLsbD 2 = false ∧ (0b10111#5).getLsbD 3 = false ∧ (0b01111#5).getLsbD 4 = false := by decide

theorem witness_ReservedCommandFails : fresh.phase = .idle := by decide

theorem witness_ReadCommandStartsATransaction : (at_ .idle).phase = .idle ∧ (at_ .idle).inited = true := by decide

theorem witness_ReadBeforeInitFails : fresh.phase = .idle ∧ fresh.inited = false := by decide

theorem witness_CommandWhileBusyIsIgnored :
    let s : State := { at_ .fail with host := [.command 0b111#3 0#5] }
    (Instr.rsvd true).format = .cmd3 ∧ s.phase ≠ .idle ∧ s.host = .command 0b111#3 0#5 :: [] := by decide

/-- All three clauses: the highest command word, the highest frame. -/
theorem witness_StepRunsTheFetchedWord :
    let s : State := { fresh with host := [.command 0b111#3 0#5] }
    (s.phase = .idle ∧ s.host = .command 0b111#3 0#5 :: []) ∧ (0 < 8 ∧ 8 ≤ 8 ∧ 7 < 8) ∧ 0xFFFFFFFFFF < 2 ^ 40 := by
  decide

/-- For every PHASE a clause names, the host presenting nothing; and a command that waits. -/
theorem witness_StepRunsWhatPhaseSelects (p : Phase) :
    (∀ rest, (at_ p).host ≠ .reset :: rest) ∧
      ((at_ p).phase = .idle → ∀ w c rest, (at_ p).host ≠ .command w c :: rest) ∧ (at_ p).phase = p := by
  refine ⟨?_, ?_, rfl⟩
  · intro rest h; cases h
  · intro _ w c rest h; cases h

/-- The four clauses. -/
theorem witness_CompletionDeliversTheResponse :
    ((at_ .fail).host = [] ∧ (at_ .fail).phase = .fail) ∧
    ((at_ .done).host = [] ∧ (at_ .done).phase = .done ∧ (at_ .done).due = .nothing) ∧
    (let s : State := { at_ .done with due := .raw }; s.host = [] ∧ s.phase = .done ∧ s.due = .raw) ∧
    (let s : State := { at_ .done with due := .pair }; s.host = [] ∧ s.phase = .done ∧ s.due = .pair) := by decide

theorem witness_ResetLeavesTheStatedValues :
    let s : State := { driven .stLow with host := [.reset, .pass] }
    s.host = .reset :: [.pass] := by decide

/-- The seven clauses. -/
theorem witness_StartMicroSteps :
    (at_ .stDir).phase = .stDir ∧ ((driven .stLow).phase = .stLow ∧ (driven .stLow).lineOE = true) ∧
    (driven .stHold).phase = .stHold ∧ ((driven .stHigh).phase = .stHigh ∧ (driven .stHigh).lineOE = true) ∧
    (driven .stRelHold).phase = .stRelHold ∧ (driven .stRelease).phase = .stRelease ∧
    ((at_ .stHigh).phase = .stHigh ∧ (at_ .stHigh).lineOE = false) := by decide

theorem witness_StartSendsTheStartSignal : (at_ .stDir).phase = .stDir ∧ (at_ .stDir).host = [] := by decide

/-- The four clauses of every wait, the last two at the ceiling and just past it: FirstEdgeWait,
ResponseLowWait, ResponseHighWait, BitMarkerWait, ReturnToLowWait. -/
theorem witness_waits : (at_ .stRelease).phase = .stRelease ∧ ∀ k : WaitId,
    let polling : State := { at_ (.rd k) with lineIn := [waitLevel k] }
    let changed : State := { at_ (.rd k) with lineIn := [!waitLevel k] }
    let inTime : State := { at_ (.tk k) with elapsed := ceiling vec k - 1 }
    let tooLate : State := { at_ (.tk k) with elapsed := ceiling vec k }
    (polling.phase = .rd k ∧ polling.lineOE = false ∧ polling.nextLevel = waitLevel k) ∧
    (changed.phase = .rd k ∧ changed.lineOE = false ∧ changed.nextLevel ≠ waitLevel k) ∧
    (inTime.phase = .tk k ∧ inTime.elapsed + inTime.params.tickUs ≤ ceiling inTime.params k) ∧
    (tooLate.phase = .tk k ∧ ceiling tooLate.params k < tooLate.elapsed + tooLate.params.tickUs) := by
  refine ⟨rfl, fun k => ?_⟩
  cases k <;> decide

theorem witness_ReadWhileDrivingFaults :
    (driven .bSmp).lineOE = true ∧ (driven .bSmp).phase = .bSmp ∧ (driven (.rd .w3)).phase = .rd .w3 := by decide

/-- An engine entering wait `k`, its answers given. -/
def entering (k : WaitId) (answers : List Level) : State := { at_ (.rd k) with lineIn := answers }

/-- A step that enters the wait, no poll at all, the change at ELAPSED = C exactly, and one poll too many. -/
theorem witness_PollingWaitReturnsOrTimesOut :
    let answers := List.replicate 60 true ++ [false]
    let stuck := List.replicate (maxReads vec .w1) true
    after (step (driven .stRelease)) State.phase = some (.rd .w1) ∧
    ((entering .w1 answers).phase = .rd .w1 ∧ (entering .w1 answers).host = [] ∧ (entering .w1 answers).lineOE = false ∧
      (entering .w1 answers).elapsed = 0 ∧ 1 ≤ (entering .w1 answers).params.tickUs) ∧
    (0 * vec.tickUs ≤ ceiling vec .w1 ∧ (entering .w1 [false]).lineIn = List.replicate 0 true ++ (!true) :: []) ∧
    (60 * vec.tickUs ≤ ceiling vec .w1 ∧ (entering .w1 answers).lineIn = List.replicate 60 true ++ (!true) :: []) ∧
    (entering .w1 stuck).lineIn = List.replicate (maxReads (entering .w1 stuck).params .w1) true ++ [] := by decide

/-- The nine clauses: a PHASE that selects none of the micro-operations. -/
theorem witness_MicroOperationsStartAtTheirFirstMicroStep :
    (at_ .idle).phase ∉ [Phase.stDir, .stLow, .stHold, .stHigh, .stRelHold, .stRelease] ∧
    (∀ k, (at_ .idle).phase ∉ [Phase.rd k, .tk k]) ∧
    (at_ .check).phase ∉ [Phase.rd .w1, .tk .w1, .rd .w2, .tk .w2, .rd .w3, .tk .w3] ∧
    (at_ .check).phase ∉ [Phase.rd .w4, .tk .w4, .bDly, .bSmp, .rd .w5, .tk .w5] := by
  refine ⟨by decide, fun k => ?_, by decide, by decide⟩
  cases k <;> decide

/-- Three waits at their ceilings. -/
theorem witness_ResponseIsThreeWaits :
    let s := entering .w1 (responseAnswers 60 100 100)
    s.phase = .rd .w1 ∧ s.host = [] ∧ s.lineOE = false ∧ s.elapsed = 0 ∧
    60 * s.params.tickUs ≤ s.params.ceilAckUs ∧ 100 * s.params.tickUs ≤ s.params.ceilRespUs ∧
    s.lineIn = responseAnswers 60 100 100 ++ [] :=
  ⟨rfl, rfl, rfl, rfl, by decide, by decide, (List.append_nil _).symm⟩

/-- Stuck high, and stuck low. -/
theorem witness_DeadLineYieldsTimeout :
    let s : State := { at_ .idle with host := [.command (cmdWord true ReadOp.readSample.code) 0#5] }
    let high : State := { s with lineIn := List.replicate (maxReads s.params .w1) true }
    let low : State := { s with lineIn := List.replicate (1 + maxReads s.params .w2) false }
    s.phase = .idle ∧ s.inited = true ∧ s.host = [.command (cmdWord true ReadOp.readSample.code) 0#5] ∧
    1 ≤ s.params.tickUs ∧ high.lineIn = List.replicate (maxReads high.params .w1) true ++ [] ∧
    low.lineIn = List.replicate (1 + maxReads low.params .w2) false ++ [] := by decide

theorem witness_SampleMicroSteps :
    (at_ .bDly).phase = .bDly ∧ (at_ .bSmp).phase = .bSmp ∧ (at_ .bSmp).lineOE = false := by decide

/-- V-BIT9's widths: the marker and the fall both at their ceilings. -/
theorem witness_OneSampleDecidesTheBit :
    let s := entering .w4 (bitAnswers 70 100 true)
    s.phase = .rd .w4 ∧ s.host = [] ∧ s.lineOE = false ∧ s.elapsed = 0 ∧
    70 * s.params.tickUs ≤ s.params.ceilBitLowUs ∧ 100 * s.params.tickUs ≤ s.params.ceilBitHighUs ∧
    s.lineIn = bitAnswers 70 100 true ++ [] :=
  ⟨rfl, rfl, rfl, rfl, by decide, by decide, (List.append_nil _).symm⟩

/-- The five clauses: inside a byte, at its last bit, at the last bit of the frame, and the bits
numbered 38 and 39. -/
theorem witness_IndicesAdvanceThroughTheFrame :
    let s := fun (b : Fin 5) (k : Fin 8) => { entering .w5 [false] with byteIdx := b, bitIdx := k }
    (∀ b k, (s b k).phase = .rd .w5 ∧ (s b k).lineOE = false ∧ (s b k).nextLevel = false) ∧
    0 < (s 4 1).bitIdx.val ∧ ((s 3 0).bitIdx.val = 0 ∧ (s 3 0).byteIdx.val < 4) ∧
    ((s 4 0).bitIdx.val = 0 ∧ (s 4 0).byteIdx.val = 4) ∧ bitNumber (s 4 1) < 39 ∧ bitNumber (s 4 0) = 39 :=
  ⟨fun _ _ => ⟨rfl, rfl, rfl⟩, by decide, by decide, by decide, by decide, by decide⟩

/-- The frame of V-FR1, every width at its ceiling. -/
theorem witness_FortyBitsAssembleTheFrame :
    let f := 0x2D001A0047#40
    let s := { entering .w4 (frameAnswers f (fun _ => 70) fun _ => 100) with bitIdx := 7 }
    s.phase = .rd .w4 ∧ s.host = [] ∧ s.lineOE = false ∧ s.elapsed = 0 ∧ s.byteIdx = 0 ∧ s.bitIdx = 7 ∧
    (∀ j < 40, (fun _ => 70) j * s.params.tickUs ≤ s.params.ceilBitLowUs ∧
      (fun _ => 100) j * s.params.tickUs ≤ s.params.ceilBitHighUs) ∧
    s.lineIn = frameAnswers f (fun _ => 70) (fun _ => 100) ++ [] :=
  ⟨rfl, rfl, rfl, rfl, rfl, rfl, fun _ _ => ⟨Nat.le_refl 70, Nat.le_refl 100⟩, (List.append_nil _).symm⟩

/-- The three clauses, for CHECKSUM and for FRAME40: V-CK6 for both operations, V-CK5. -/
theorem witness_ChecksumDecides :
    let good : State := { at_ .check with raw := ⟨255, 255, 255, 255, 252⟩ }
    let bad : State := { at_ .check with raw := ⟨255, 255, 255, 255, 255⟩ }
    (255 + 255 + 255 + 255) % 256 = good.raw.b4.toNat ∧ good.op = .readSample ∧
    ({ good with op := .readRaw } : State).op = .readRaw ∧ (255 + 255 + 255 + 255) % 256 ≠ bad.raw.b4.toNat := by
  decide

/-- The clauses of FRAME40's statement at the same frames. -/
theorem witness_FrameWordIsChecked :
    let sum := (255#8).toNat + (255#8).toNat + (255#8).toNat + (255#8).toNat
    sum % 256 = (252#8).toNat ∧ sum % 256 ≠ (255#8).toNat ∧ (at_ .check).op = .readSample ∧
    ({ at_ .check with op := .readRaw } : State).op = .readRaw := by decide

/-- The three clauses: Variant A, the sign bit clear and set at its boundary. -/
theorem witness_ExtractTemperatureWritesTemp :
    let pos : State := { at_ .extract with variant := .b, raw := ⟨0, 0, 127, 255, 0⟩ }
    let neg : State := { at_ .extract with variant := .b, raw := ⟨0, 0, 128, 0, 0⟩ }
    (at_ .extract).variant = .a ∧ (pos.variant = .b ∧ pos.raw.b2.toNat < 128) ∧
    (neg.variant = .b ∧ 128 ≤ neg.raw.b2.toNat) := by decide

theorem witness_ExtractHumidityWritesHum :
    (at_ .extract).variant = .a ∧ ({ at_ .extract with variant := .b } : State).variant = .b := by decide

theorem witness_TemperatureIsSignAndMagnitude : (0x7F#8).getLsbD 7 = false ∧ (0x00#8).getLsbD 7 = false := by decide

/-- The clauses of the round trip: a multiple of 5, another, and both upper ends. -/
theorem witness_VariantBRoundTrip : 65535 ≤ 65535 ∧ 32767 ≤ 32767 ∧ 32767 % 5 ≠ 0 ∧ 65534 % 5 ≠ 0 := by decide

/-- The largest tenths against the largest finite pattern, and against themselves (the tie). -/
theorem witness_SinglesAreNearest :
    65535 ≤ 65535 ∧ isFinite 0xFF7FFFFF#32 = true ∧ isFinite (f32 65535 10) = true ∧
    |10 * value150 (f32 65535 10) - 65535 * 2 ^ 150| = |10 * value150 (f32 65535 10) - 65535 * 2 ^ 150| ∧
    255 ≤ 255 :=
  ⟨by decide, by decide, by decide, rfl, by decide⟩

theorem witness_TenthsCompareAsTheirSingles :
    (-65535 : Int).natAbs ≤ 65535 ∧ (65535 : Int).natAbs ≤ 65535 := by decide

/-- V-RG3: in range, at the bound; and each of the four bounds missed by the least the variant can. -/
theorem witness_RangeCheckDecides :
    let s : State := { at_ .range with temp := temperature .a 50#8 0#8, hum := humidity .a 45#8 0#8 }
    (s.temp = temperature s.variant 50#8 0#8 ∧ s.hum = humidity s.variant 45#8 0#8) ∧
    (tMin vec .a ≤ tX10 .a 50#8 0#8 ∧ tX10 .a 50#8 0#8 ≤ tMax vec .a ∧
      hMin vec .a ≤ (hX10 .a 45#8 0#8 : Int) ∧ (hX10 .a 45#8 0#8 : Int) ≤ hMax vec .a) ∧
    tX10 .b 0x81#8 0x91#8 < tMin vec .b ∧ tMax vec .a < tX10 .a 51#8 0#8 ∧
    (hX10 .a 19#8 0#8 : Int) < hMin vec .a ∧ hMax vec .a < (hX10 .a 91#8 0#8 : Int) := by decide

/-- A next state for an instruction of each kind the frames speak of (the frames' own premise):
OnlyInitWritesTheConfiguration, OnlyStartDrivesTheLine, DataRegistersFrame, SequencingRegistersFrame. -/
theorem witness_frames :
    after (exec .start (at_ .stDir)) State.phase = some .stLow ∧
    after (exec .checksum (at_ .check)) State.phase = some .extract ∧
    after (exec (.rsvd true) (at_ .idle)) State.phase = some .fail ∧
    after (exec .rdbit (at_ .bDly)) State.phase = some .bSmp ∧
    after (exec .w3 (entering .w3 [true])) State.phase = some (.tk .w3) ∧
    (Instr.checksum ∉ [Instr.rdbit, .rdframe] ∧ Instr.rdframe ∈ [Instr.rdbit, .rdframe]) := by decide

/-- The invariant at a state where most of its clauses say something: a pair about to be delivered
(V-P6, command 2). -/
theorem witness_EveryStepKeepsTheInvariant :
    let s : State := { at_ .done with
      variant := .b, raw := ⟨0x01, 0xF4, 0x80, 0x65, 0xDA⟩, temp := 0xC121999A#32, hum := 0x42480000#32, due := .pair }
    s.Inv ∧ after (step s) State.phase = some .idle := by
  refine ⟨⟨rfl, rfl, ?_, ?_, ?_, ?_, ?_, ?_, ?_, ?_, ?_⟩, by decide⟩ <;> first
    | decide
    | (intro k h; rcases h with h | h <;> cases h)

/-- The invariant inside START and inside a wait: TheMachineNeverStops. -/
theorem witness_TheMachineNeverStops :
    (driven .stRelease).Inv ∧ (entering .w5 [true, false]).Inv := by
  refine ⟨⟨rfl, rfl, ?_, ?_, ?_, ?_, ?_, ?_, ?_, ?_, ?_⟩, ⟨rfl, rfl, ?_, ?_, ?_, ?_, ?_, ?_, ?_, ?_, ?_⟩⟩ <;> first
    | decide
    | (intro k h; rcases h with h | h <;> cases h <;> decide)

/-- No reset presented, the invariant holding, and the row that applies; and a row without a command. -/
theorem witness_StepIsTheTransitionTable :
    let s : State := { at_ .idle with host := [.command 0b110#3 0#5] }
    s.Inv ∧ (∀ rest, s.host ≠ .reset :: rest) ∧ acceptedWord s = some 0b110#3 ∧
    TableRow (acceptedWord s) (takeInputs s) { takeInputs s with trace := [], op := .readSample, phase := .stDir } ∧
    TableRow none (at_ .bDly) { at_ .bDly with trace := [.dlyUs 35], phase := .bSmp } := by
  refine ⟨⟨rfl, rfl, ?_, ?_, ?_, ?_, ?_, ?_, ?_, ?_, ?_⟩, fun rest h => ?_, rfl, ?_, ?_⟩
  any_goals decide
  · intro k h; rcases h with h | h <;> cases h
  · cases h
  · exact TableRow.t0cSample rfl (by decide) rfl
  · exact TableRow.t11 rfl

/-- Next states on each side of both statements about steps: AtMostOneLineOperationPerStep,
ExtractorRunsOnlyAfterTheDecoder. -/
theorem witness_steps :
    after (step (at_ .check)) (fun t => (t.phase, t.trace)) = some (.extract, []) ∧
    after (step (at_ .extract)) (fun t => (t.phase, t.trace)) = some (.range, []) ∧
    after (step (at_ .bDly)) State.trace = some [.dlyUs 35] ∧
    after (step { at_ .idle with host := [.command 0b010#3 0#5], trace := [.dir true] }) State.trace = some [] := by
  decide

/-- Further commands and an empty step presented behind the one that runs. -/
theorem witness_EveryCommandTerminates :
    let rest : List HostEvent := [.pass, .command 0b001#3 0b11111#5]
    let s : State := { at_ .idle with host := .command 0b111#3 0#5 :: rest }
    s.phase = .idle ∧ s.host = .command 0b111#3 0#5 :: rest ∧ .reset ∉ rest ∧ 1 ≤ s.params.tickUs := by decide

theorem witness_CommandDurationIsBounded :
    let s : State := { at_ .idle with host := [.command 0b111#3 0#5] }
    s.phase = .idle ∧ s.host = [.command 0b111#3 0#5] ∧ 1 ≤ s.params.tickUs := by decide

/-- Two engines that differ in everything an earlier command leaves. -/
theorem witness_CommandsAreIndependentOfThePast :
    let s : State := { at_ .idle with host := [.command 0b010#3 0#5] }
    let u : State := { s with
      raw := ⟨1, 2, 3, 4, 5⟩, status := .checksum, temp := 7, hum := 8, byteIdx := 2, bitIdx := 3, elapsed := 9
      op := .readRaw, due := .pair, sbit := true, trace := [.dir true] }
    s.phase = .idle ∧ u.phase = .idle ∧ s.host = [.command 0b010#3 0#5] ∧ u.host = [.command 0b010#3 0#5] ∧
    s.params = u.params ∧ s.variant = u.variant ∧ s.inited = u.inited ∧ s.lineIn = u.lineIn ∧ s.reads = u.reads ∧
    s ≠ u ∧ after (runs 2 s) State.phase = some .stLow := by decide

/-- READ_RAW of V-FR5's frame, every width at its ceiling. -/
theorem witness_TransactionDeliversTheFrameOnTheWire :
    let f := 0x01F48065DA#40
    let s : State := { at_ .idle with
      host := [.command (cmdWord false ReadOp.readRaw.code) 0#5]
      lineIn := responseAnswers 60 100 100 ++ (frameAnswers f (fun _ => 70) (fun _ => 100) ++ []) }
    s.phase = .idle ∧ s.inited = true ∧ s.host = [.command (cmdWord false ReadOp.readRaw.code) 0#5] ∧
    60 * s.params.tickUs ≤ s.params.ceilAckUs ∧ 100 * s.params.tickUs ≤ s.params.ceilRespUs ∧
    (∀ j < 40, (fun _ => 70) j * s.params.tickUs ≤ s.params.ceilBitLowUs ∧
      (fun _ => 100) j * s.params.tickUs ≤ s.params.ceilBitHighUs) ∧
    s.lineIn = responseAnswers 60 100 100 ++ (frameAnswers f (fun _ => 70) (fun _ => 100) ++ []) :=
  ⟨rfl, rfl, rfl, by decide, by decide, fun _ _ => ⟨Nat.le_refl 70, Nat.le_refl 100⟩, rfl⟩

end Sys2Proof.Tests
end

/-! Runs of the machine through a polling wait, a data bit and a frame (spec/40_decoder.md R112, R116, R123 to R125), and O32. -/

namespace Sys2Proof.Machine

/-! ### One quiet micro-step of a wait or of a bit, the rows T7 to T12 of R112 -/

/-- With nothing presented by the host, a step runs the instruction that PHASE selects (R112). -/
theorem step_quiet {s : State} {i : Instr} (hh : s.host = []) (hsel : select s.phase = .run i) :
    step s = exec i { s with rsp := none } := by
  rw [step, action_quiet hh, takeInputs_quiet hh, hsel]

/-- Inside a wait that step is a micro-step of the wait (R116). -/
theorem step_wait {k : WaitId} {s : State} (hp : s.phase = .rd k ∨ s.phase = .tk k) (hh : s.host = []) :
    step s = waitStep k { s with rsp := none } := by
  rcases hp with hp | hp <;> cases k <;> exact step_quiet hh (by rw [hp]; rfl)

/-- In `Wk_RD`, the line released, that micro-step is the wait's read (rows T7, T8). -/
theorem step_read {k : WaitId} {s : State} (hp : s.phase = .rd k) (hh : s.host = []) (ho : s.lineOE = false) :
    step s = .next (if s.nextLevel = waitLevel k then { s.afterRead with rsp := none, phase := .tk k }
      else waitExit k { s.afterRead with rsp := none }) := by
  rw [step_wait (.inl hp) hh, waitStep_rd (s := { s with rsp := none }) hp]
  exact waitRead_released ho

/-- A read that finds the level waited for goes on to the tick (row T7). -/
theorem step_poll {k : WaitId} {s : State} {rest : List Level} (hp : s.phase = .rd k) (hh : s.host = [])
    (ho : s.lineOE = false) (hl : s.lineIn = waitLevel k :: rest) :
    step s = .next { s with
      rsp := none, lineIn := rest, reads := s.reads + 1, trace := .rd (waitLevel k) :: s.trace, phase := .tk k } := by
  rw [step_read hp hh ho, if_pos (nextLevel_cons hl), State.afterRead, nextLevel_cons hl, hl, List.tail_cons]

/-- A read that finds the other level leaves the wait (row T8). -/
theorem step_change {k : WaitId} {s : State} {rest : List Level} (hp : s.phase = .rd k) (hh : s.host = [])
    (ho : s.lineOE = false) (hl : s.lineIn = (!waitLevel k) :: rest) :
    step s = .next (waitExit k { s with
      rsp := none, lineIn := rest, reads := s.reads + 1, trace := .rd (!waitLevel k) :: s.trace }) := by
  rw [step_read hp hh ho, if_neg (by rw [nextLevel_cons hl]; exact Bool.not_ne_self _), State.afterRead,
    nextLevel_cons hl, hl, List.tail_cons]

/-- A tick within the ceiling goes back to the read (row T9). -/
theorem step_tick {k : WaitId} {s : State} (hp : s.phase = .tk k) (hh : s.host = [])
    (hc : s.elapsed + s.params.tickUs ≤ ceiling s.params k) :
    step s = .next { s with
      rsp := none, trace := .dlyUs s.params.tickUs :: s.trace, elapsed := s.elapsed + s.params.tickUs
      phase := .rd k } := by
  rw [step_wait (.inr hp) hh, waitStep_tk (s := { s with rsp := none }) hp, waitTick, if_pos hc]
  rfl

/-- The fixed delay before the sample (row T11). -/
theorem step_bDly {s : State} (hp : s.phase = .bDly) (hh : s.host = []) :
    step s = .next { s with rsp := none, trace := .dlyUs s.params.tSampleUs :: s.trace, phase := .bSmp } := by
  rw [step_quiet (i := .rdbit) hh (by rw [hp]; rfl)]
  simp [exec, execRdbit, bitStep, hp, delayUs]

/-- The one sample of a bit (row T12). -/
theorem step_bSmp {s : State} {b : Level} {rest : List Level} (hp : s.phase = .bSmp) (hh : s.host = [])
    (ho : s.lineOE = false) (hl : s.lineIn = b :: rest) :
    step s = .next { s with
      rsp := none, lineIn := rest, reads := s.reads + 1, trace := .rd b :: s.trace, sbit := b
      raw := s.raw.putBit s.byteIdx s.bitIdx b, elapsed := 0, phase := .rd .w5 } := by
  rw [step_quiet (i := .rdbit) hh (by rw [hp]; rfl)]
  simp [exec, execRdbit, bitStep, hp, sampleBit, rd_released, ho, State.afterRead, State.nextLevel, hl]

/-! ### A polling wait as a whole (R116) -/

/-- The oldest poll of a row of polls stands last in the trace. -/
theorem polls_succ (l : Level) (tick n : Nat) (t : List LineOp) :
    polls l tick (n + 1) ++ t = polls l tick n ++ .dlyUs tick :: .rd l :: t := by
  simp [polls, List.replicate_succ']

/-- One unsuccessful poll within the ceiling, read and tick, leads back to the read (rows T7, T9). -/
theorem runs_poll {k : WaitId} {rest : List Level} (n : Nat) {s : State} (hp : s.phase = .rd k) (hh : s.host = [])
    (ho : s.lineOE = false) (hc : s.elapsed + s.params.tickUs ≤ ceiling s.params k)
    (hl : s.lineIn = waitLevel k :: rest) :
    runs (n + 2) s = runs n { s with
      rsp := none, lineIn := rest, reads := s.reads + 1, elapsed := s.elapsed + s.params.tickUs
      trace := .dlyUs s.params.tickUs :: .rd (waitLevel k) :: s.trace } := by
  rw [runs_succ, step_poll hp hh ho hl, andThen_next, runs_succ, step_tick (k := k), andThen_next, hp]
  exacts [rfl, hh, hc]

/-- A wait that finds its level `n` times within the ceiling, then the other level, returns (R116). -/
theorem runs_wait {k : WaitId} {rest : List Level} (n : Nat) {s : State} (hp : s.phase = .rd k)
    (hh : s.host = []) (ho : s.lineOE = false) (hc : s.elapsed + n * s.params.tickUs ≤ ceiling s.params k)
    (hl : s.lineIn = List.replicate n (waitLevel k) ++ (!waitLevel k) :: rest) :
    runs (2 * n + 1) s = .next (waitExit k { s with
      rsp := none, lineIn := rest, reads := s.reads + (n + 1), elapsed := s.elapsed + n * s.params.tickUs
      trace := .rd (!waitLevel k) :: (polls (waitLevel k) s.params.tickUs n ++ s.trace) }) := by
  induction n generalizing s with
  | zero =>
    rw [Nat.mul_zero, runs_succ, step_change hp hh ho hl]
    simp [polls, runs_zero]
  | succ n ih =>
    rw [Nat.add_mul, Nat.one_mul] at hc
    rw [show 2 * (n + 1) + 1 = 2 * n + 1 + 2 by omega, runs_poll _ hp hh ho (by omega) hl, ih]
    · rw [polls_succ, Nat.add_mul, Nat.one_mul]
      congr 3 <;> dsimp only <;> omega
    exacts [hp, hh, ho, by simpa only [Nat.add_assoc, Nat.add_comm] using hc, rfl]

/-! ### One data bit as a whole (R123) -/

/-- The fixed delay and the one sample, which is stored at the current indices (rows T11, T12). -/
theorem runs_sample {b : Level} {rest : List Level} (n : Nat) {s : State} (hp : s.phase = .bDly)
    (hh : s.host = []) (ho : s.lineOE = false) (hl : s.lineIn = b :: rest) :
    runs (n + 2) s = runs n { s with
      rsp := none, lineIn := rest, reads := s.reads + 1, trace := .rd b :: .dlyUs s.params.tSampleUs :: s.trace
      sbit := b, raw := s.raw.putBit s.byteIdx s.bitIdx b, elapsed := 0, phase := .rd .w5 } := by
  rw [runs_succ, step_bDly hp hh, andThen_next, runs_succ, step_bSmp (b := b) (rest := rest), andThen_next]
  exacts [rfl, hh, ho, hl]

/-- A data bit with its pulses within the ceilings: the sample alone is stored, then the indices advance (R123). -/
theorem runs_bit {s : State} {m w : Nat} {b : Level} {rest : List Level} (hp : s.phase = .rd .w4)
    (hh : s.host = []) (ho : s.lineOE = false) (he : s.elapsed = 0)
    (hm : m * s.params.tickUs ≤ s.params.ceilBitLowUs) (hw : w * s.params.tickUs ≤ s.params.ceilBitHighUs)
    (hl : s.lineIn = bitAnswers m w b ++ rest) :
    runs (2 * m + 1 + 2 + (2 * w + 1)) s = .next (advance { s with
      rsp := none, lineIn := rest, reads := s.reads + (m + 1 + 1 + (w + 1)), sbit := b
      raw := s.raw.putBit s.byteIdx s.bitIdx b, elapsed := w * s.params.tickUs, phase := .rd .w5
      trace := .rd false :: (polls true s.params.tickUs w ++ .rd b :: .dlyUs s.params.tSampleUs :: .rd true ::
        (polls false s.params.tickUs m ++ s.trace)) }) := by
  have hin : s.lineIn = List.replicate m false ++ true :: b :: (List.replicate w true ++ false :: rest) := by
    simpa [bitAnswers] using hl
  have hmarker := runs_wait (k := .w4) m hp hh ho (by rwa [he, Nat.zero_add]) hin
  rw [Nat.add_assoc, runs_add, hmarker, andThen_next, Nat.add_comm 2,
    runs_sample (b := b) (rest := List.replicate w true ++ false :: rest), runs_wait (k := .w5) (rest := rest) w]
  · simp [waitExit, waitLevel, Nat.add_assoc]
  exacts [rfl, hh, ho, (Nat.zero_add _).trans_le hw, rfl, rfl, hh, ho, rfl]

/-! ### The index advance (R124) -/

/-- A bit stands at the current indices exactly if its number is the current one (R52, R124). -/
theorem eq_bitNumber_iff (s : State) (j : Fin 5) {k : Nat} (hk : k < 8) :
    8 * j.val + (7 - k) = bitNumber s ↔ j = s.byteIdx ∧ k = s.bitIdx.val := by
  rw [bitNumber, Fin.ext_iff]
  omega

/-- The advance writes the indices, ELAPSED and PHASE only (R124). -/
theorem advance_frame (s : State) : advance s = { s with
    byteIdx := (advance s).byteIdx, bitIdx := (advance s).bitIdx, elapsed := (advance s).elapsed
    phase := (advance s).phase } := by
  unfold advance
  repeat' split
  all_goals rfl

/-- Before the last bit, the advance enters W4 of the next bit (R124). -/
theorem advance_of_lt {s : State} (h : bitNumber s < 39) :
    (advance s).phase = .rd .w4 ∧ (advance s).elapsed = 0 ∧ bitNumber (advance s) = bitNumber s + 1 := by
  unfold bitNumber at h
  unfold advance
  split
  · exact ⟨rfl, rfl, by simp only [bitNumber]; omega⟩
  · split
    · exact ⟨rfl, rfl, by simp only [bitNumber]; omega⟩
    · omega

/-- After the last bit, the advance leaves the frame for CHECK (R124). -/
theorem advance_of_last {s : State} (h : bitNumber s = 39) : advance s = { s with phase := .check } := by
  unfold bitNumber at h
  rw [advance, if_neg (by omega), if_neg (by omega)]

/-! ### The bytes of a frame in RAW (R52) -/

/-- RAW is known by its five reads. -/
theorem Raw.ext_get {r q : Raw} (h : ∀ j, r.get j = q.get j) : r = q := by
  cases r
  cases q
  exact (Raw.mk.injEq ..).mpr ⟨h 0, h 1, h 2, h 3, h 4⟩

theorem Raw.get_ofFrame (f : BitVec 40) (j : Fin 5) : (Raw.ofFrame f).get j = frameByte f j := by
  fin_cases j <;> rfl

/-- The first `n` bits of the frame `f` stand where they belong: bit `k` of byte `j` is the one received as
number `8 j + (7 - k)` (R52). -/
def HoldsBits (r : Raw) (f : BitVec 40) (n : Nat) : Prop :=
  ∀ (j : Fin 5) (k : Nat), k < 8 → 8 * j.val + (7 - k) < n →
    (r.get j).getLsbD k = f.getLsbD (39 - (8 * j.val + (7 - k)))

/-- Storing the bit received next at the current indices makes it one bit more (R123). -/
theorem HoldsBits.putBit {r : Raw} {f : BitVec 40} {s : State} (h : HoldsBits r f (bitNumber s)) :
    HoldsBits (r.putBit s.byteIdx s.bitIdx (f.getLsbD (39 - bitNumber s))) f (bitNumber s + 1) := by
  intro j k hk hlt
  rw [Raw.getLsbD_putBit _ _ _ _ _ _ hk]
  by_cases hcur : 8 * j.val + (7 - k) = bitNumber s
  · rw [if_pos ((eq_bitNumber_iff s j hk).1 hcur), hcur]
  · rw [if_neg (mt (eq_bitNumber_iff s j hk).2 hcur)]
    exact h j k hk (by omega)

/-- Forty bits are the frame (R52). -/
theorem HoldsBits.eq_ofFrame {r : Raw} {f : BitVec 40} (h : HoldsBits r f 40) : r = Raw.ofFrame f := by
  refine Raw.ext_get fun j => BitVec.eq_of_getLsbD_eq fun k hk => ?_
  have hpos : 39 - (8 * j.val + (7 - k)) = 32 - 8 * j.val + k := by omega
  rw [h j k hk (by omega), hpos, Raw.get_ofFrame, frameByte, BitVec.getLsbD_extractLsb', decide_eq_true hk,
    Bool.true_and]

/-! ### A frame as a whole (R52, R125) -/

/-- `t` is what `s` becomes by receiving the first `n` bits of the frame `f`, `rest` being the answers left. -/
structure ReceivedBits (s : State) (f : BitVec 40) (n : Nat) (rest : List Level) (t : State) : Prop where
  /-- Everything a data bit does not write is as it was in `s` (R123, R124). -/
  frame : t = { s with
    rsp := t.rsp, lineIn := rest, reads := t.reads, trace := t.trace, sbit := t.sbit, raw := t.raw
    byteIdx := t.byteIdx, bitIdx := t.bitIdx, elapsed := t.elapsed, phase := t.phase }
  /-- The pulse of `rsp_valid` is over after the first step (R36). -/
  pulse : 0 < n → t.rsp = none
  /-- Before the last bit the engine enters W4 of bit number `n` (R124). -/
  entered : n < 40 → t.phase = .rd .w4 ∧ t.elapsed = 0 ∧ bitNumber t = n
  /-- After it the frame is over (R124). -/
  ended : n = 40 → t.phase = .check
  /-- The bits received so far stand in RAW (R52). -/
  bits : HoldsBits t.raw f n

/-- The index advance that ends bit number `n`. -/
theorem ReceivedBits.of_advance {s u : State} {f : BitVec 40} {n : Nat} {rest : List Level}
    (hu : u = { s with
      rsp := none, lineIn := rest, reads := u.reads, trace := u.trace, sbit := u.sbit, raw := u.raw
      byteIdx := u.byteIdx, bitIdx := u.bitIdx, elapsed := u.elapsed, phase := u.phase })
    (hb : bitNumber u = n) (hbits : HoldsBits u.raw f (n + 1)) : ReceivedBits s f (n + 1) rest (advance u) where
  frame := by rw [advance_frame, hu]
  pulse _ := by rw [advance_rsp, hu]
  entered hn := hb ▸ advance_of_lt (by omega)
  ended hn := by rw [advance_of_last (by omega)]
  bits := by rwa [advance_raw]

/-- One further bit: the step of the induction over a frame. -/
theorem ReceivedBits.next {s t : State} {f : BitVec 40} {n m w : Nat} {rest : List Level}
    (h : ReceivedBits s f n (bitAnswers m w (f.getLsbD (39 - n)) ++ rest) t) (hn : n < 40)
    (hh : s.host = []) (ho : s.lineOE = false)
    (hm : m * s.params.tickUs ≤ s.params.ceilBitLowUs) (hw : w * s.params.tickUs ≤ s.params.ceilBitHighUs) :
    ∃ i u, runs i t = .next u ∧ ReceivedBits s f (n + 1) rest u := by
  obtain ⟨hp, he, hb⟩ := h.entered hn
  have hparams : t.params = s.params := by rw [h.frame]
  have hhost : t.host = [] := by rw [h.frame, hh]
  have hline : t.lineOE = false := by rw [h.frame, ho]
  have hin : t.lineIn = bitAnswers m w (f.getLsbD (39 - n)) ++ rest := by rw [h.frame]
  subst hb
  exact ⟨_, _, runs_bit hp hhost hline he (by rwa [hparams]) (by rwa [hparams]) hin,
    .of_advance (by rw [h.frame]) rfl h.bits.putBit⟩

/-- The first `n` bits of a frame, whatever their widths within the ceilings (R52, R125). -/
theorem runs_bits {s : State} {f : BitVec 40} {m w : Nat → Nat} (hp : s.phase = .rd .w4) (hh : s.host = [])
    (ho : s.lineOE = false) (he : s.elapsed = 0) (hb : bitNumber s = 0)
    (hc : ∀ j < 40, m j * s.params.tickUs ≤ s.params.ceilBitLowUs ∧ w j * s.params.tickUs ≤ s.params.ceilBitHighUs)
    (n : Nat) (hn : n ≤ 40) (rest : List Level)
    (hl : s.lineIn = ((List.range n).flatMap fun j => bitAnswers (m j) (w j) (f.getLsbD (39 - j))) ++ rest) :
    ∃ i t, runs i s = .next t ∧ ReceivedBits s f n rest t := by
  induction n generalizing rest with
  | zero =>
    refine ⟨0, s, runs_zero s, ⟨?_, ?_, fun _ => ⟨hp, he, hb⟩, ?_, ?_⟩⟩
    · rw [← show s.lineIn = rest from hl]
    · omega
    · omega
    · intro j k hk hlt
      omega
  | succ n ih =>
    obtain ⟨i, t, hrun, ht⟩ := ih (by omega) (bitAnswers (m n) (w n) (f.getLsbD (39 - n)) ++ rest)
      (by simpa [List.range_succ] using hl)
    obtain ⟨hm, hw⟩ := hc n hn
    obtain ⟨i', u, hrun', hu⟩ := ht.next hn hh ho hm hw
    exact ⟨i + i', u, runs_trans hrun hrun', hu⟩

/-- Settles O32: by induction on the number of bits received, each bit being W4, delay, sample, W5. -/
theorem fortyBitsAssembleTheFrame : Obligations.FortyBitsAssembleTheFrame := by
  intro s f m w rest hp hh ho he hbyte hbit hc hl
  obtain ⟨n, t, hrun, ht⟩ := runs_bits hp hh ho he (by simp [bitNumber, hbyte, hbit]) hc 40 le_rfl rest hl
  refine ⟨n, t, hrun, ht.ended rfl, ht.bits.eq_ofFrame, ?_⟩
  rw [ht.frame]
  exact ⟨rfl, rfl, rfl, rfl, rfl, rfl, ho, rfl, rfl, rfl, hh, ht.pulse (by omega)⟩

end Sys2Proof.Machine

/-! The command word (spec/30_encoding.md R80 to R83, R188): what the words of each operation decode to (O3), and the
reserved command (O9). -/

namespace Sys2Proof.Machine

/-! ### The words of each operation (R80, R81) -/

/-- Bit `v` of an INIT word is the new variant tag (R24, R81). -/
@[simp] theorem decodeCmd_cmdWord_init (v : Variant) : decodeCmd (cmdWord (variantBit v) 0b01#2) = .init v := by
  cases v <;> rfl

@[simp] theorem decodeCmd_cmdWord_readSample (v : Bool) : decodeCmd (cmdWord v 0b10#2) = .readSample v := by
  cases v <;> rfl

@[simp] theorem decodeCmd_cmdWord_readRaw (v : Bool) : decodeCmd (cmdWord v 0b11#2) = .readRaw v := by
  cases v <;> rfl

@[simp] theorem decodeCmd_cmdWord_rsvd (v : Bool) : decodeCmd (cmdWord v 0b00#2) = .rsvd v := by
  cases v <;> rfl

/-- Settles O3: each operation's two words are its `op` bits under both values of bit `v`. -/
theorem allEightCommandWordsDecode : Obligations.AllEightCommandWordsDecode :=
  ⟨decodeCmd_cmdWord_init .a, decodeCmd_cmdWord_init .b,
    decodeCmd_cmdWord_readSample false, decodeCmd_cmdWord_readSample true,
    decodeCmd_cmdWord_readRaw false, decodeCmd_cmdWord_readRaw true,
    decodeCmd_cmdWord_rsvd false, decodeCmd_cmdWord_rsvd true⟩

/-! ### The reserved command (R83, R188) -/

/-- RSVD, if it is accepted, raises `Fail` (R83, R188). -/
theorem exec_rsvd (v : Bool) (s : State) : exec (.rsvd v) s = accepted s (raise .fail) := rfl

/-- Settles O9: an idle engine accepts RSVD, and raising `Fail` writes STATUS and PHASE only. -/
theorem reservedCommandFails : Obligations.ReservedCommandFails := by
  intro v s hidle
  rw [exec_rsvd, accepted_idle hidle]
  rfl

end Sys2Proof.Machine

/-! Waits, the start signal and the frame check as wholes (spec/40_decoder.md R113, R116 to R121, R124, R126): O18 to
O23, O25, O31, O34. -/

namespace Sys2Proof.Machine

/-! ### One step, by what it does (R112) -/

/-- What an action does to the state with its inputs taken. -/
def perform : Action → State → Result
  | .stay, s => .next s
  | .run i, s => exec i s
  | .runBoth i j, s => andThen (exec i s) (exec j)
  | .complete, s => .next (deliver s)
  | .reset, s => .next (resetBy s)

theorem step_eq_perform (s : State) : step s = perform (action s) (takeInputs s) := by
  unfold step perform
  cases action s <;> rfl

/-- A step is a reset, the acceptance of a command in IDLE, or what PHASE selects (R35, R112, R230). -/
theorem action_cases (s : State) :
    action s = .reset ∨ (s.phase = .idle ∧ ∃ w, action s = .run (decodeCmd w)) ∨ action s = select s.phase := by
  unfold action busy
  split
  · exact .inl rfl
  · split
    · exact .inr (.inr rfl)
    · exact .inr (.inl ⟨by simp_all, _, rfl⟩)
  · exact .inr (.inr rfl)
  · exact .inr (.inr rfl)

/-- A command accepted in IDLE goes to DONE, to FAIL, or into START (rows T0a to T0e). -/
theorem exec_decodeCmd_phase {w : BitVec 3} {s t : State} (hidle : s.phase = .idle)
    (h : exec (decodeCmd w) s = .next t) : t.phase = .done ∨ t.phase = .fail ∨ t.phase = .stDir := by
  unfold decodeCmd at h
  split at h <;> simp only [exec, execInit, execReadSample, execReadRaw, execRsvd, startRead, accepted_idle hidle] at h
  case h_1 | h_2 | h_3 =>
    cases h
    split <;> simp
  case h_4 =>
    cases h
    simp

/-! ### Entering a wait (R116) -/

/-- From `s` to `t` no wait is entered but with ELAPSED 0; only a wait's own tick goes back to its read. -/
def EntersAtZero (s t : State) : Prop :=
  ∀ k, t.phase = .rd k → s.phase = .tk k ∨ t.elapsed = 0

theorem EntersAtZero.of_elapsed {s t : State} (h : t.elapsed = 0) : EntersAtZero s t := fun _ _ => .inr h

theorem EntersAtZero.of_not_read {s t : State} (h : ∀ k, t.phase ≠ .rd k) : EntersAtZero s t :=
  fun k hk => absurd hk (h k)

/-- The advance enters W4 with ELAPSED 0, or leaves the frame (R124). -/
theorem entersAtZero_advance (s u : State) : EntersAtZero s (advance u) := by
  unfold advance
  split
  · exact .of_elapsed rfl
  · split
    · exact .of_elapsed rfl
    · exact .of_not_read nofun

/-- The exits that lead into a wait clear ELAPSED; that of W4 leads to the sample delay (R112). -/
theorem entersAtZero_waitExit (j : WaitId) (s u : State) : EntersAtZero s (waitExit j u) := by
  cases j with
  | w1 | w2 | w3 => exact .of_elapsed rfl
  | w4 => exact .of_not_read nofun
  | w5 => exact entersAtZero_advance s u

theorem entersAtZero_waitStep {j : WaitId} {s t : State} (h : waitStep j s = .next t) : EntersAtZero s t := by
  obtain ⟨htk, h⟩ | ⟨-, h⟩ := waitStep_cases h
  · obtain ⟨-, rfl⟩ | ⟨-, rfl⟩ := waitTick_cases h
    · intro k hk
      cases hk
      exact .inl htk
    · exact .of_not_read nofun
  · obtain ⟨-, ⟨-, rfl⟩ | ⟨-, rfl⟩⟩ := waitRead_cases h
    · exact .of_not_read nofun
    · exact entersAtZero_waitExit _ _ _

/-- START leads into W1 by its last micro-step only (rows T1 to T6). -/
theorem entersAtZero_start {s t : State} (h : exec .start s = .next t) : EntersAtZero s t := by
  simp only [exec, execStart] at h
  split at h
  case h_1 | h_3 =>
    obtain ⟨-, h⟩ := wr_eq_next.1 h
    cases h
    exact .of_not_read nofun
  case h_5 =>
    cases h
    exact .of_elapsed rfl
  all_goals
    cases h
    exact .of_not_read nofun

/-- The sample leads into W5 (row T12). -/
theorem entersAtZero_rdbit {s t : State} (h : exec .rdbit s = .next t) : EntersAtZero s t := by
  simp only [exec, execRdbit, bitStep] at h
  split at h
  case h_1 =>
    cases h
    exact .of_not_read nofun
  case h_2 =>
    obtain ⟨-, h⟩ := rd_eq_next.1 h
    cases h
    exact .of_elapsed rfl
  all_goals exact entersAtZero_waitStep h

theorem entersAtZero_checksum {s t : State} (h : exec .checksum s = .next t) : EntersAtZero s t := by
  obtain ⟨-, -, rfl⟩ | ⟨-, -, rfl⟩ | ⟨-, rfl⟩ := checkFrame_cases h <;> exact .of_not_read nofun

theorem entersAtZero_rangeCheck {s t : State} (h : exec .rangeCheck s = .next t) : EntersAtZero s t := by
  simp only [exec, execRangeCheck] at h
  split at h <;> cases h <;> exact .of_not_read nofun

/-- What PHASE selects, row by row of R112. -/
theorem entersAtZero_select {s t : State} (h : perform (select s.phase) s = .next t) : EntersAtZero s t := by
  cases hp : s.phase with
  | idle =>
    rw [hp] at h
    cases h
    exact .of_not_read (by simp [hp])
  | stDir | stLow | stHold | stHigh | stRelHold | stRelease =>
    rw [hp] at h
    exact entersAtZero_start h
  | rd j | tk j =>
    rw [hp] at h
    cases j <;> exact entersAtZero_waitStep h
  | bDly | bSmp =>
    rw [hp] at h
    exact entersAtZero_rdbit h
  | check =>
    rw [hp] at h
    exact entersAtZero_checksum h
  | range =>
    rw [hp] at h
    exact entersAtZero_rangeCheck h
  | extract | done | fail =>
    rw [hp] at h
    cases h
    exact .of_not_read nofun

theorem entersAtZero_step {s t : State} (h : step s = .next t) : EntersAtZero s t := by
  rw [step_eq_perform] at h
  obtain hreset | ⟨hidle, w, hcmd⟩ | hsel := action_cases s
  · rw [hreset] at h
    cases h
    exact .of_not_read nofun
  · rw [hcmd] at h
    refine .of_not_read fun k hk => ?_
    obtain hp | hp | hp := exec_decodeCmd_phase (by rwa [takeInputs_phase]) h <;> simp [hp] at hk
  · rw [hsel, ← takeInputs_phase] at h
    simpa [EntersAtZero] using entersAtZero_select h

/-! ### A wait that times out (R116) -/

/-- A tick beyond the ceiling raises `Timeout` (row T10). -/
theorem step_tick_timeout {k : WaitId} {s : State} (hp : s.phase = .tk k) (hh : s.host = [])
    (hc : ceiling s.params k < s.elapsed + s.params.tickUs) :
    step s = .next { s with
      rsp := none, trace := .dlyUs s.params.tickUs :: s.trace, elapsed := s.elapsed + s.params.tickUs
      status := .timeout, phase := .fail } := by
  rw [step_wait (.inr hp) hh, waitStep_tk (s := { s with rsp := none }) hp, waitTick, if_neg (Nat.not_le.2 hc)]
  rfl

/-- A wait that finds its level `n` times within the ceiling and once more raises `Timeout` (R116). -/
theorem runs_timeout {k : WaitId} {rest : List Level} (n : Nat) {s : State} (hp : s.phase = .rd k)
    (hh : s.host = []) (ho : s.lineOE = false) (hin : s.elapsed + n * s.params.tickUs ≤ ceiling s.params k)
    (hout : ceiling s.params k < s.elapsed + (n + 1) * s.params.tickUs)
    (hl : s.lineIn = List.replicate (n + 1) (waitLevel k) ++ rest) :
    runs (2 * (n + 1)) s = .next { s with
      rsp := none, lineIn := rest, reads := s.reads + (n + 1), elapsed := s.elapsed + (n + 1) * s.params.tickUs
      trace := polls (waitLevel k) s.params.tickUs (n + 1) ++ s.trace, status := .timeout, phase := .fail } := by
  induction n generalizing s with
  | zero =>
    rw [Nat.zero_add, Nat.one_mul] at hout
    rw [runs_succ_of_next (step_poll hp hh ho hl)]
    refine Eq.trans (runs_succ_of_next (step_tick_timeout (k := k) rfl hh hout)) ?_
    simp [polls, runs_zero]
  | succ n ih =>
    rw [Nat.add_mul, Nat.one_mul] at hin
    rw [Nat.add_mul _ 1, Nat.one_mul] at hout
    rw [Nat.mul_add 2 (n + 1) 1, runs_poll _ hp hh ho (by omega) hl, ih]
    · rw [polls_succ _ _ (n + 1), Nat.add_mul (n + 1) 1, Nat.one_mul]
      congr 2 <;> dsimp only <;> omega
    exacts [hp, hh, ho, by dsimp only; omega, by dsimp only; omega, rfl]

/-- Settles O25: entering is a case split over what a step can do; the two runs are inductions over the polls. -/
theorem pollingWaitReturnsOrTimesOut : Obligations.PollingWaitReturnsOrTimesOut := by
  refine ⟨fun s t k hstep => entersAtZero_step hstep k, fun k s rest hp hh ho he htick => ?_⟩
  refine ⟨fun n hn hl => ?_, fun hl => ?_⟩
  · rw [runs_wait n hp hh ho (by rwa [he, Nat.zero_add]) hl, he, Nat.zero_add]
  · have hin : ceiling s.params k / s.params.tickUs * s.params.tickUs ≤ ceiling s.params k := Nat.div_mul_le_self ..
    have hout : ceiling s.params k < (ceiling s.params k / s.params.tickUs + 1) * s.params.tickUs :=
      Nat.mul_comm .. ▸ Nat.lt_mul_div_succ _ htick
    rw [maxReads, runs_timeout _ hp hh ho (by rwa [he, Nat.zero_add]) (by rwa [he, Nat.zero_add]) hl, he, Nat.zero_add]

/-! ### The instructions that run a wait (R115 to R125) -/

/-- Inside wait `k`, instruction `i` runs the micro-step of the wait that PHASE selects. -/
def RunsWait (i : Instr) (k : WaitId) : Prop :=
  ∀ s : State, s.phase = .rd k ∨ s.phase = .tk k → exec i s = waitStep k s

theorem runsWait_wait (k : WaitId) : RunsWait (.wait k) k := fun _ _ => rfl

theorem runsWait_response {k : WaitId} (hk : k ∈ [WaitId.w1, .w2, .w3]) : RunsWait .response k := by
  intro s hp
  simp only [List.mem_cons, List.not_mem_nil, or_false] at hk
  obtain rfl | rfl | rfl := hk <;> obtain hp | hp := hp <;> simp only [exec, execResponse, hp]

/-- Inside W1, W2 and W3 their own constructors, WAIT and RESPONSE run the wait (R115, R117 to R119). -/
theorem runsWait_inResponse {j : Instr} {k : WaitId} (hj : RunsWait j k) (hk : k ∈ [WaitId.w1, .w2, .w3]) :
    ∀ i ∈ [j, .wait k, .response], RunsWait i k := by
  simp only [List.forall_mem_cons]
  exact ⟨hj, runsWait_wait k, runsWait_response hk, nofun⟩

/-- A bit's micro-step inside W4 or W5 is the wait's (R123). -/
theorem bitStep_of_wait {k : WaitId} (hk : k = .w4 ∨ k = .w5) {s : State} (hp : s.phase = .rd k ∨ s.phase = .tk k) :
    bitStep s = waitStep k s := by
  obtain rfl | rfl := hk <;> obtain hp | hp := hp <;> simp only [bitStep, hp]

theorem runsWait_rdbit {k : WaitId} (hk : k = .w4 ∨ k = .w5) : RunsWait .rdbit k := fun _ => bitStep_of_wait hk

theorem runsWait_rdframe {k : WaitId} (hk : k = .w4 ∨ k = .w5) : RunsWait .rdframe k := by
  intro s hp
  have hin : inBit s.phase = true := by
    obtain rfl | rfl := hk <;> obtain hp | hp := hp <;> rw [hp] <;> rfl
  exact (if_pos hin).trans (bitStep_of_wait hk hp)

/-- Inside W4 and W5 their own constructors, WAIT, RDBIT and RDFRAME run the wait (R120, R121, R123, R125). -/
theorem runsWait_inBit {j : Instr} {k : WaitId} (hj : RunsWait j k) (hk : k = .w4 ∨ k = .w5) :
    ∀ i ∈ [j, .wait k, .rdbit, .rdframe], RunsWait i k := by
  simp only [List.forall_mem_cons]
  exact ⟨hj, runsWait_wait k, runsWait_rdbit hk, runsWait_rdframe hk, nofun⟩

-- Each wait's own constructor runs it (R117 to R121).
theorem runsWait_w1 : RunsWait .w1 .w1 := fun _ _ => rfl
theorem runsWait_w2 : RunsWait .w2 .w2 := fun _ _ => rfl
theorem runsWait_w3 : RunsWait .w3 .w3 := fun _ _ => rfl
theorem runsWait_w4 : RunsWait .w4 .w4 := fun _ _ => rfl
theorem runsWait_w5 : RunsWait .w5 .w5 := fun _ _ => rfl

/-- What runs wait `k` has the wait's level, ceiling and exit (rows T7 to T10). -/
theorem RunsWait.isWait {i : Instr} {k : WaitId} (h : RunsWait i k) :
    IsWait i k (waitLevel k) (fun p => ceiling p k) (waitExit k) := by
  intro s
  refine ⟨fun hp ho hv => ?_, fun hp ho hv => ?_, fun hp hc => ?_, fun hp hc => ?_⟩
  · rw [h s (.inl hp), waitStep_rd hp, waitRead_released ho, if_pos hv]
  · rw [h s (.inl hp), waitStep_rd hp, waitRead_released ho, if_neg hv]
  · rw [h s (.inr hp), waitStep_tk hp, waitTick, if_pos hc]
    rfl
  · rw [h s (.inr hp), waitStep_tk hp, waitTick, if_neg (Nat.not_le.2 hc)]
    rfl

/-! ### The index advance, case by case (R124) -/

theorem advance_of_bit {s : State} (h : 0 < s.bitIdx.val) :
    advance s = { s with bitIdx := s.bitIdx - 1, elapsed := 0, phase := .rd .w4 } := if_pos h

theorem advance_of_byte {s : State} (hbit : s.bitIdx.val = 0) (hbyte : s.byteIdx.val < 4) :
    advance s = { s with byteIdx := s.byteIdx + 1, bitIdx := 7, elapsed := 0, phase := .rd .w4 } := by
  rw [advance, if_neg (by omega), if_pos hbyte]

/-- The index advance by the indices themselves, not by their values (R124). -/
theorem advance_eq (s : State) : advance s =
    if s.bitIdx ≠ 0 then { s with bitIdx := s.bitIdx - 1, elapsed := 0, phase := .rd .w4 }
    else if s.byteIdx ≠ 4 then { s with byteIdx := s.byteIdx + 1, bitIdx := 7, elapsed := 0, phase := .rd .w4 }
    else { s with phase := .check } := by
  have hbit : 0 < s.bitIdx.val ↔ s.bitIdx ≠ 0 := by rw [Ne, Fin.ext_iff]; exact Nat.pos_iff_ne_zero
  have hbyte : s.byteIdx.val < 4 ↔ s.byteIdx ≠ 4 := Fin.lt_last_iff_ne_last (n := 4)
  simp only [advance, hbit, hbyte]

/-- At the exit of W5 whatever runs the wait does the index advance (R121, R124). -/
theorem RunsWait.exec_change_w5 {i : Instr} (h : RunsWait i .w5) {s : State} (hp : s.phase = .rd .w5)
    (ho : s.lineOE = false) (hv : s.nextLevel = false) : exec i s = .next (advance s.afterRead) := by
  obtain ⟨-, hchange, -, -⟩ := h.isWait s
  exact hchange hp ho (by simp [hv, waitLevel])

/-- Settles O31: the exit of W5 is the index advance, and a bit's number is `8 BYTE_IDX + 7 - BIT_IDX`. -/
theorem indicesAdvanceThroughTheFrame : Obligations.IndicesAdvanceThroughTheFrame := by
  intro i hi s hp ho hv
  rw [(runsWait_inBit runsWait_w5 (.inr rfl) i hi).exec_change_w5 hp ho hv]
  refine ⟨fun h => ?_, fun hbit hbyte => ?_, fun hbit hbyte => ?_, fun h => ?_, fun h => ?_⟩
  · rw [advance_of_bit (s := s.afterRead) h]
    rfl
  · rw [advance_of_byte (s := s.afterRead) hbit hbyte]
    rfl
  · rw [advance_of_last (by simp [bitNumber, State.afterRead, hbit, hbyte])]
  · obtain ⟨hphase, -, hnext⟩ := advance_of_lt (s := s.afterRead) h
    exact ⟨_, rfl, hphase, hnext⟩
  · rw [advance_of_last (s := s.afterRead) h]
    exact ⟨_, rfl, rfl⟩

/-! ### START (R113; rows T1 to T6) -/

theorem exec_start_stDir {s : State} (hp : s.phase = .stDir) :
    exec .start s = .next { s with lineOE := true, trace := .dir true :: s.trace, phase := .stLow } := by
  simp [exec, execStart, hp, dir]

theorem exec_start_stLow {s : State} (hp : s.phase = .stLow) (ho : s.lineOE = true) :
    exec .start s = .next { s with lineOut := false, trace := .wr false :: s.trace, phase := .stHold } := by
  simp [exec, execStart, hp, wr_driven ho]

theorem exec_start_stHold {s : State} (hp : s.phase = .stHold) :
    exec .start s = .next { s with
      trace := .dlyMs (startLowMs s.params s.variant) :: s.trace, phase := .stHigh } := by
  simp [exec, execStart, hp, delayMs]

theorem exec_start_stHigh {s : State} (hp : s.phase = .stHigh) (ho : s.lineOE = true) :
    exec .start s = .next { s with lineOut := true, trace := .wr true :: s.trace, phase := .stRelHold } := by
  simp [exec, execStart, hp, wr_driven ho]

theorem exec_start_stRelHold {s : State} (hp : s.phase = .stRelHold) :
    exec .start s = .next { s with trace := .dlyUs s.params.tStartHighUs :: s.trace, phase := .stRelease } := by
  simp [exec, execStart, hp, delayUs]

theorem exec_start_stRelease {s : State} (hp : s.phase = .stRelease) :
    exec .start s = .next { s with
      lineOE := false, trace := .dir false :: s.trace, elapsed := 0, phase := .rd .w1 } := by
  simp [exec, execStart, hp, dir]

/-- With nothing presented by the host, a run from inside START begins with a micro-step of START. -/
theorem runs_succ_start {n : Nat} {s t : State} (hh : s.host = []) (hsel : select s.phase = .run .start)
    (h : exec .start { s with rsp := none } = .next t) : runs (n + 1) s = runs n t :=
  runs_succ_of_next ((step_quiet hh hsel).trans h)

/-- The six micro-steps of START in a row (R113). -/
theorem runs_start {s : State} (hp : s.phase = .stDir) (hh : s.host = []) :
    runs 6 s = .next { s with
      rsp := none, lineOE := false, lineOut := true, elapsed := 0, phase := .rd .w1
      trace := [.dir false, .dlyUs s.params.tStartHighUs, .wr true, .dlyMs (startLowMs s.params s.variant),
        .wr false, .dir true] ++ s.trace } := by
  refine Eq.trans (runs_succ_start hh (by rw [hp]; rfl) (exec_start_stDir hp)) ?_
  refine Eq.trans (runs_succ_start hh rfl (exec_start_stLow rfl rfl)) ?_
  refine Eq.trans (runs_succ_start hh rfl (exec_start_stHold rfl)) ?_
  refine Eq.trans (runs_succ_start hh rfl (exec_start_stHigh rfl rfl)) ?_
  refine Eq.trans (runs_succ_start hh rfl (exec_start_stRelHold rfl)) ?_
  exact runs_succ_start hh rfl (exec_start_stRelease rfl)

/-- Settles O18: the run is the six rows one after the other; of its operations the two delays take time (R15). -/
theorem startSendsTheStartSignal : Obligations.StartSendsTheStartSignal := by
  intro s hp hh
  refine ⟨_, runs_start hp hh, rfl, ?_⟩
  simp only [now, List.map_append, List.sum_append, List.map_cons, List.sum_cons, List.map_nil, List.sum_nil,
    LineOp.micros]
  omega

/-! ### The five waits (R117 to R121) -/

/-- The sample leads into W5 with ELAPSED 0 (row T12). -/
theorem exec_rdbit_bSmp {s : State} (hp : s.phase = .bSmp) (ho : s.lineOE = false) :
    exec .rdbit s = .next { s.afterRead with
      sbit := s.nextLevel, raw := s.raw.putBit s.byteIdx s.bitIdx s.nextLevel, elapsed := 0, phase := .rd .w5 } := by
  simp [exec, execRdbit, bitStep, hp, sampleBit, rd_released ho]

/-- Settles O19: W1, WAIT and RESPONSE run wait W1, whose level, ceiling and exit these are; row T6 clears ELAPSED. -/
theorem firstEdgeWait : Obligations.FirstEdgeWait := fun i hi =>
  ⟨(runsWait_inResponse runsWait_w1 (by decide) i hi).isWait,
    fun _ hp => ⟨_, exec_start_stRelease hp, rfl, rfl⟩⟩

/-- Settles O20: W2, WAIT and RESPONSE run wait W2, whose level, ceiling and exit these are. -/
theorem responseLowWait : Obligations.ResponseLowWait := fun i hi =>
  (runsWait_inResponse runsWait_w2 (by decide) i hi).isWait

/-- Settles O21: W3, WAIT and RESPONSE run wait W3, whose level, ceiling and exit these are. -/
theorem responseHighWait : Obligations.ResponseHighWait := fun i hi =>
  (runsWait_inResponse runsWait_w3 (by decide) i hi).isWait

/-- Settles O22: W4, WAIT, RDBIT and RDFRAME run wait W4, whose level, ceiling and exit these are. -/
theorem bitMarkerWait : Obligations.BitMarkerWait := fun i hi =>
  (runsWait_inBit runsWait_w4 (.inl rfl) i hi).isWait

/-- Settles O23: W5, WAIT, RDBIT and RDFRAME run wait W5, whose exit is the index advance; row T12 enters it. -/
theorem returnToLowWait : Obligations.ReturnToLowWait := by
  intro i hi
  refine ⟨fun _ hp ho => ⟨_, exec_rdbit_bSmp hp ho, rfl, rfl⟩, ?_⟩
  simp only [← advance_eq]
  exact (runsWait_inBit runsWait_w5 (.inr rfl) i hi).isWait

/-! ### The frame check (R126; rows T13 to T15) -/

/-- The frame check is the sum of four bytes modulo 256 against the fifth (R87, R126). -/
theorem sumOk_iff (r : Raw) :
    sumOk r = true ↔ (r.b0.toNat + r.b1.toNat + r.b2.toNat + r.b3.toNat) % 256 = r.b4.toNat := by
  simp [sumOk, checkByte, ← BitVec.toNat_inj]

theorem checkFrame_readRaw {s : State} (hsum : sumOk s.raw = true) (hop : s.op = .readRaw) :
    checkFrame s = .next (finish .raw s) := by
  simp [checkFrame, hsum, hop]

theorem checkFrame_readSample {s : State} (hsum : sumOk s.raw = true) (hop : s.op = .readSample) :
    checkFrame s = .next { s with phase := .extract } := by
  simp [checkFrame, hsum, hop]

theorem checkFrame_bad {s : State} (hsum : ¬ sumOk s.raw = true) :
    checkFrame s = .next (raise .checksumError s) := by
  simp [checkFrame, hsum]

/-- Settles O34: CHECKSUM is the frame check, and its test is that of the sums. -/
theorem checksumDecides : Obligations.ChecksumDecides := fun _ =>
  ⟨fun hsum hop => checkFrame_readRaw ((sumOk_iff _).2 hsum) hop,
    fun hsum hop => checkFrame_readSample ((sumOk_iff _).2 hsum) hop,
    fun hsum => checkFrame_bad (mt (sumOk_iff _).1 hsum)⟩

end Sys2Proof.Machine

/-! Extraction and the range test (spec/41_extractor.md R150 to R155, R157, R159): O36, O37, O39, O40, O42, O45. -/

namespace Sys2Proof.Machine

/-! ### Values of binary32 patterns (R157) -/

/-- An exact multiple of the divisor rounds to its quotient. -/
theorem roundHalfEven_mul_left (n : Nat) {b : Nat} (hb : 0 < b) : roundHalfEven (b * n) b = n :=
  roundHalfEven_eq (by omega) (by omega)

/-- A whole number of one byte is its own image: it has no more significant bits than a significand holds. -/
theorem value150_f32_whole {n : Nat} (hn : n ≤ 255) : value150 (f32 n 1) = n * 2 ^ 150 := by
  rcases Nat.eq_zero_or_pos n with rfl | hpos
  · decide
  have hk : Nat.log2 (16 * n / 1) < 12 := (Nat.log2_lt (by omega)).2 (by omega)
  obtain ⟨hmag, hsign⟩ := magnitude150_f32 (n := n) (d := 1) (by decide) (by omega) (by omega)
  generalize Nat.log2 (16 * n / 1) = k at hk hmag
  have hround : roundHalfEven (n * 2 ^ 27) (1 * 2 ^ k) = n * 2 ^ (27 - k) := by
    have hsplit : n * 2 ^ 27 = 1 * 2 ^ k * (n * 2 ^ (27 - k)) := by
      rw [← Nat.add_sub_cancel' (show k ≤ 27 by omega), Nat.pow_add, Nat.add_sub_cancel_left]; ring
    rw [hsplit, roundHalfEven_mul_left _ (by positivity)]
  have hexact : magnitude150 (f32 n 1) = n * 2 ^ 150 := by
    rw [hmag, hround, Nat.mul_assoc, ← Nat.pow_add, show 27 - k + (k + 123) = 150 by omega]
  rw [value150, hsign, if_neg Bool.false_ne_true, hexact, Nat.cast_mul, Nat.cast_pow, Nat.cast_ofNat]

/-- Flipping the sign bit negates the value (R157). -/
theorem value150_negate (x : Single) : value150 (negate x) = -value150 x := by
  obtain ⟨hmag, hsign⟩ := negate_fields x
  simp only [value150, hmag, hsign]
  cases x.getLsbD 31 <;> simp

/-! ### Variant B's sign and magnitude (R90, R153) -/

/-- The sign flag is the high bit of byte 2. -/
theorem tempSign_eq (x2 : Byte) : tempSign x2 = decide (128 ≤ x2.toNat) :=
  BitVec.msb_eq_decide x2

/-- The magnitude is the low seven bits of byte 2, then byte 3. -/
theorem tempMagnitude_eq (x2 x3 : Byte) : tempMagnitude x2 x3 = x2.toNat % 128 * 256 + x3.toNat := by
  simp [tempMagnitude]

theorem tempSign_or_signBit (x2 : Byte) : tempSign (x2 ||| 0x80#8) = true := by
  simp [tempSign]

/-- The sign flag is no part of the magnitude. -/
theorem tempMagnitude_or_signBit (x2 x3 : Byte) : tempMagnitude (x2 ||| 0x80#8) x3 = tempMagnitude x2 x3 := by
  simp [tempMagnitude, BitVec.extractLsb'_or]

theorem temperature_b_of_unsigned {x2 : Byte} (h : tempSign x2 = false) (x3 : Byte) :
    temperature .b x2 x3 = f32 (tempMagnitude x2 x3) 10 := by simp [temperature, h]

theorem temperature_b_of_signed {x2 : Byte} (h : tempSign x2 = true) (x3 : Byte) :
    temperature .b x2 x3 = negate (f32 (tempMagnitude x2 x3) 10) := by simp [temperature, h]

theorem tX10_b_of_unsigned {x2 : Byte} (h : tempSign x2 = false) (x3 : Byte) :
    tX10 .b x2 x3 = tempMagnitude x2 x3 := by simp [tX10, h]

theorem tX10_b_of_signed {x2 : Byte} (h : tempSign x2 = true) (x3 : Byte) :
    tX10 .b x2 x3 = -(tempMagnitude x2 x3 : Int) := by simp [tX10, h]

/-- Setting the sign flag negates the temperature (R153). -/
theorem temperature_b_or_signBit {x2 : Byte} (h : tempSign x2 = false) (x3 : Byte) :
    temperature .b (x2 ||| 0x80#8) x3 = negate (temperature .b x2 x3) := by
  rw [temperature_b_of_signed (tempSign_or_signBit x2), tempMagnitude_or_signBit, temperature_b_of_unsigned h]

/-- Setting the sign flag negates the tenths (R153). -/
theorem tX10_b_or_signBit {x2 : Byte} (h : tempSign x2 = false) (x3 : Byte) :
    tX10 .b (x2 ||| 0x80#8) x3 = -tX10 .b x2 x3 := by
  rw [tX10_b_of_signed (tempSign_or_signBit x2), tempMagnitude_or_signBit, tX10_b_of_unsigned h]

/-- Settles O40: the flag leaves the magnitude alone, and set, it negates what the magnitude gives. -/
theorem temperatureIsSignAndMagnitude : Obligations.TemperatureIsSignAndMagnitude := by
  intro x2 x3 h
  refine ⟨temperature_b_or_signBit h x3, tX10_b_or_signBit h x3, ?_, by decide⟩
  rw [temperature_b_or_signBit h, value150_negate]

/-- Settles O42: bytes 0x80, 0x00 are +0.0 with its sign flag set, and the negative of 0 is 0. -/
theorem negativeZeroCountsAsZero : Obligations.NegativeZeroCountsAsZero := by
  have hpattern : temperature .b 0x80#8 0x00#8 = 0x80000000#32 := by decide
  have htenths : tX10 .b 0x80#8 0x00#8 = 0 := by decide
  refine ⟨hpattern, htenths, ?_, ?_⟩
  · rw [← hpattern, tenthsOf_temperature, htenths]
  · calc value150 0x80000000#32 = -value150 0x00000000#32 := value150_negate 0x00000000#32
      _ = value150 0x00000000#32 := by decide

/-- Settles O39: Variant A reads byte 2 and byte 0 only, both whole numbers; the frame check adds all four bytes. -/
theorem variantAIgnoresTheFractions : Obligations.VariantAIgnoresTheFractions := fun x0 _ _ x2 _ _ _ =>
  ⟨rfl, rfl, rfl, rfl, value150_f32_whole (Nat.le_of_lt_succ x2.isLt), value150_f32_whole (Nat.le_of_lt_succ x0.isLt),
    sumOk_iff _⟩

/-! ### The extract operations (R150, R151) -/

/-- EXTRACT_TEMPERATURE writes TEMP and nothing else. -/
theorem exec_extractTemperature (s : State) : exec .extractTemperature s =
    .next { s with temp := temperature s.variant s.raw.b2 s.raw.b3 } := rfl

/-- EXTRACT_HUMIDITY writes HUM and ends row T16. -/
theorem exec_extractHumidity (s : State) : exec .extractHumidity s =
    .next { s with hum := humidity s.variant s.raw.b0 s.raw.b1, phase := .range } := rfl

/-- Settles O36: by the variant, and under Variant B by the sign flag, which byte 2 has from 128 on. -/
theorem extractTemperatureWritesTemp : Obligations.ExtractTemperatureWritesTemp := by
  intro s
  simp only [exec_extractTemperature]
  refine ⟨fun hv => ⟨⟨s.phase, by rw [hv]; rfl⟩, rfl⟩, fun hv hlt => ?_, fun hv hge => ?_⟩
  · have hsign : tempSign s.raw.b2 = false := by rw [tempSign_eq]; exact decide_eq_false (by omega)
    rw [hv, temperature_b_of_unsigned hsign, tX10_b_of_unsigned hsign, tempMagnitude_eq]
    exact ⟨⟨s.phase, rfl⟩, rfl⟩
  · have hsign : tempSign s.raw.b2 = true := by rw [tempSign_eq]; exact decide_eq_true hge
    rw [hv, temperature_b_of_signed hsign, tX10_b_of_signed hsign, tempMagnitude_eq]
    exact ⟨⟨s.phase, rfl⟩, rfl⟩

/-- Settles O37: by the variant, whose humidity is byte 0 or the field of bytes 0 and 1. -/
theorem extractHumidityWritesHum : Obligations.ExtractHumidityWritesHum := by
  intro s
  simp only [exec_extractHumidity]
  exact ⟨fun hv => ⟨⟨.range, by rw [hv]; rfl⟩, rfl⟩, fun hv => ⟨⟨.range, by rw [hv]; rfl⟩, rfl⟩⟩

/-! ### RANGE_CHECK (R159; rows T17, T18) -/

theorem inRange_iff {p : Params} {v : Variant} {t h : Int} :
    inRange p v t h = true ↔ tMin p v ≤ t ∧ t ≤ tMax p v ∧ hMin p v ≤ h ∧ h ≤ hMax p v := by
  simp [inRange, and_assoc]

/-- On extracted values RANGE_CHECK tests the tenths of the bytes they came from (R158, R159). -/
theorem exec_rangeCheck_extracted {s : State} {x0 x1 x2 x3 : Byte} (ht : s.temp = temperature s.variant x2 x3)
    (hh : s.hum = humidity s.variant x0 x1) : exec .rangeCheck s =
      .next (if inRange s.params s.variant (tX10 s.variant x2 x3) (hX10 s.variant x0 x1) then finish .pair s
        else raise .fail s) := by
  rw [← tenthsOf_temperature, ← tenthsOf_humidity, ← ht, ← hh]
  rfl

/-- Settles O45: the tenths are read back from TEMP and HUM, and the test is that of the four bounds. -/
theorem rangeCheckDecides : Obligations.RangeCheckDecides := by
  intro s x0 x1 x2 x3 ht hh
  rw [exec_rangeCheck_extracted ht hh]
  refine ⟨fun hin => ?_, fun hout => ?_⟩
  · rw [if_pos (inRange_iff.2 hin)]
    rfl
  · rw [if_neg fun h => ?_]
    · rfl
    · obtain ⟨htmin, htmax, hhmin, hhmax⟩ := inRange_iff.1 h
      omega

end Sys2Proof.Machine

/-! The pipeline of a READ command (spec/42_pipeline.md R171, R172): the layering of decoder and extractor (O56), and a
READ before INIT (O11). -/

namespace Sys2Proof.Machine

/-! ### A READ command before a successful INIT (R172; row T0d) -/

theorem exec_readSample (v : Bool) (s : State) : exec (.readSample v) s = startRead .readSample s := rfl

theorem exec_readRaw (v : Bool) (s : State) : exec (.readRaw v) s = startRead .readRaw s := rfl

/-- An idle engine accepts a READ command; not initialised, it raises `Fail` (R172). -/
theorem startRead_uninited {s : State} (hidle : s.phase = .idle) (hinit : s.inited = false) (o : ReadOp) :
    startRead o s = .next (raise .fail (accept s)) := by
  simp [startRead, accepted_idle hidle, hinit]

/-- Settles O11: both READ commands are accepted and raise `Fail`, which writes STATUS and PHASE only. -/
theorem readBeforeInitFails : Obligations.ReadBeforeInitFails := by
  intro v s hidle hinit
  rw [exec_readSample, exec_readRaw, startRead_uninited hidle hinit, startRead_uninited hidle hinit]
  exact ⟨rfl, rfl⟩

/-! ### The decoder's operations never lead into the extractor (R171) -/

/-- `PHASE` stands inside the extractor (R171). -/
def inExtractor : Phase → Bool
  | .extract => true
  | .range => true
  | _ => false

/-- The advance leads to W4 or to the frame check (R124). -/
theorem inExtractor_advance (s : State) : inExtractor (advance s).phase = false := by
  unfold advance
  split
  · rfl
  · split <;> rfl

theorem inExtractor_waitExit (k : WaitId) (s : State) : inExtractor (waitExit k s).phase = false := by
  cases k with
  | w1 | w2 | w3 | w4 => rfl
  | w5 => exact inExtractor_advance s

theorem inExtractor_waitStep {k : WaitId} {s t : State} (h : waitStep k s = .next t) :
    inExtractor t.phase = false := by
  obtain ⟨-, h⟩ | ⟨-, h⟩ := waitStep_cases h
  · obtain ⟨-, rfl⟩ | ⟨-, rfl⟩ := waitTick_cases h <;> rfl
  · obtain ⟨-, ⟨-, rfl⟩ | ⟨-, rfl⟩⟩ := waitRead_cases h
    · rfl
    · exact inExtractor_waitExit _ _

theorem inExtractor_start {s t : State} (h : exec .start s = .next t) : inExtractor t.phase = false := by
  simp only [exec, execStart] at h
  split at h
  case h_1 | h_3 =>
    obtain ⟨-, h⟩ := wr_eq_next.1 h
    cases h
    rfl
  all_goals
    cases h
    rfl

theorem inExtractor_rdbit {s t : State} (h : exec .rdbit s = .next t) : inExtractor t.phase = false := by
  simp only [exec, execRdbit, bitStep] at h
  split at h
  case h_1 =>
    cases h
    rfl
  case h_2 =>
    obtain ⟨-, h⟩ := rd_eq_next.1 h
    cases h
    rfl
  all_goals exact inExtractor_waitStep h

/-! ### The layering, step by step (R171) -/

/-- RANGE_CHECK completes the command or raises `Fail` (rows T17, T18). -/
theorem exec_rangeCheck_cases {s t : State} (h : exec .rangeCheck s = .next t) :
    t = finish .pair s ∨ t = raise .fail s := by
  simp only [exec, execRangeCheck] at h
  split at h
  · exact .inl (Host.Outcome.next.inj h).symm
  · exact .inr (Host.Outcome.next.inj h).symm

/-- A step is a reset, the acceptance of a command in IDLE, or what PHASE selects, on the state with its inputs taken. -/
theorem step_cases {s t : State} (h : step s = .next t) :
    t = resetBy (takeInputs s) ∨ (s.phase = .idle ∧ ∃ w, exec (decodeCmd w) (takeInputs s) = .next t) ∨
      perform (select s.phase) (takeInputs s) = .next t := by
  rw [step_eq_perform] at h
  obtain hreset | ⟨hidle, w, hcmd⟩ | hsel := action_cases s
  · rw [hreset] at h
    exact .inl (Host.Outcome.next.inj h).symm
  · rw [hcmd] at h
    exact .inr (.inl ⟨hidle, w, h⟩)
  · rw [hsel] at h
    exact .inr (.inr h)

/-- From `s` to `t` the extractor is entered only through the frame check, left to right, and from CHECK on the line is
left alone (R171). -/
def Layered (s t : State) : Prop :=
  (t.phase = .extract → s.phase = .check ∧ sumOk s.raw = true ∧ s.op = .readSample) ∧
  (t.phase = .range → s.phase = .extract) ∧
  (s.phase = .check ∨ s.phase = .extract ∨ s.phase = .range → t.trace = s.trace)

/-- A step that ends outside the extractor has only the trace to answer for. -/
theorem Layered.of_outside {s t : State} (ht : inExtractor t.phase = false)
    (htrace : s.phase = .check ∨ s.phase = .extract ∨ s.phase = .range → t.trace = s.trace) : Layered s t := by
  refine ⟨fun hp => ?_, fun hp => ?_, htrace⟩ <;> simp [hp, inExtractor] at ht

/-- The frame check leads to EXTRACT with the sums equal, for READ_SAMPLE only (rows T13 to T15). -/
theorem layered_checksum {s t : State} (hp : s.phase = .check) (h : exec .checksum s = .next t) : Layered s t := by
  obtain ⟨-, -, rfl⟩ | ⟨hsum, hop, rfl⟩ | ⟨-, rfl⟩ := checkFrame_cases h
  · exact .of_outside rfl fun _ => rfl
  · exact ⟨fun _ => ⟨hp, hsum, hop⟩, nofun, fun _ => rfl⟩
  · exact .of_outside rfl fun _ => rfl

/-- The two extract operations lead from EXTRACT to RANGE (row T16). -/
theorem layered_extract {s t : State} (hp : s.phase = .extract)
    (h : andThen (exec .extractTemperature s) (exec .extractHumidity) = .next t) : Layered s t := by
  rw [exec_extractTemperature, andThen_next, exec_extractHumidity] at h
  cases h
  exact ⟨nofun, fun _ => hp, fun _ => rfl⟩

theorem layered_rangeCheck {s t : State} (h : exec .rangeCheck s = .next t) : Layered s t := by
  obtain rfl | rfl := exec_rangeCheck_cases h <;> exact .of_outside rfl fun _ => rfl

/-- What PHASE selects, row by row of R112. -/
theorem layered_select {s t : State} (h : perform (select s.phase) s = .next t) : Layered s t := by
  cases hp : s.phase with
  | idle =>
    rw [hp] at h
    cases h
    exact .of_outside (by rw [hp]; rfl) fun _ => rfl
  | stDir | stLow | stHold | stHigh | stRelHold | stRelease =>
    rw [hp] at h
    exact .of_outside (inExtractor_start h) (by simp [hp])
  | rd k | tk k =>
    rw [hp] at h
    refine .of_outside ?_ (by simp [hp])
    cases k <;> exact inExtractor_waitStep h
  | bDly | bSmp =>
    rw [hp] at h
    exact .of_outside (inExtractor_rdbit h) (by simp [hp])
  | check =>
    rw [hp] at h
    exact layered_checksum hp h
  | extract =>
    rw [hp] at h
    exact layered_extract hp h
  | range =>
    rw [hp] at h
    exact layered_rangeCheck h
  | done | fail =>
    rw [hp] at h
    cases h
    exact .of_outside rfl fun _ => rfl

theorem layered_step {s t : State} (h : step s = .next t) : Layered s t := by
  obtain rfl | ⟨hidle, w, hcmd⟩ | hsel := step_cases h
  · exact .of_outside rfl fun _ => by simp
  · refine .of_outside ?_ (by simp [hidle])
    obtain hp | hp | hp := exec_decodeCmd_phase (by rwa [takeInputs_phase]) hcmd <;> rw [hp] <;> rfl
  · rw [← takeInputs_phase] at hsel
    simpa [Layered] using layered_select hsel

/-- Settles O56: a reset and a completion go to IDLE, a command leaves IDLE for DONE, FAIL or START, and what PHASE selects
is layered row by row. -/
theorem extractorRunsOnlyAfterTheDecoder : Obligations.ExtractorRunsOnlyAfterTheDecoder :=
  fun _ _ => layered_step

end Sys2Proof.Machine

/-! The host's command INIT (spec/43_init.md R185 to R187): the capability test and its two outcomes (O7, O8). -/

namespace Sys2Proof.Machine

/-! ### The capability test (R185, R187) -/

/-- The test asks for each of the five capabilities (R187). -/
theorem allBound_iff {cap : BitVec 5} : allBound cap = true ↔ ∀ k < 5, cap.getLsbD k = true := by
  have hones : 0b11111#5 = BitVec.allOnes 5 := rfl
  rw [allBound, decide_eq_true_iff, hones, BitVec.eq_of_getLsbD_eq_iff]
  exact forall₂_congr fun k hk => by rw [BitVec.getLsbD_allOnes, decide_eq_true hk]

/-! ### INIT in IDLE (R185, R186; rows T0a, T0b) -/

/-- With every capability bound, an idle engine takes the tag and completes without data (R185). -/
theorem exec_init_allBound {s : State} (hidle : s.phase = .idle) (hcap : allBound s.cap = true) (v : Variant) :
    exec (.init v) s = .next (finish .nothing { accept s with variant := v, inited := true }) := by
  simp [exec, execInit, accepted_idle hidle, hcap]

/-- With a capability missing, an idle engine raises `InitError` and is not initialised (R186). -/
theorem exec_init_missing {s : State} (hidle : s.phase = .idle) (hcap : ¬ allBound s.cap = true) (v : Variant) :
    exec (.init v) s = .next (raise .initError { accept s with inited := false }) := by
  simp [exec, execInit, accepted_idle hidle, hcap]

/-- Settles O7: the word 11111 is the one the test asks for, so INIT takes the tag and completes. -/
theorem initSucceedsWithAllCapabilities : Obligations.InitSucceedsWithAllCapabilities := by
  intro v s hidle hcap
  have hbound : allBound s.cap = true := by rw [hcap]; rfl
  exact exec_init_allBound hidle hbound v

/-- Settles O8: a bit that is 0 fails the test, so INIT raises `InitError`, which leaves VARIANT alone. -/
theorem initFailsWithoutACapability : Obligations.InitFailsWithoutACapability := by
  intro v s k hk hidle hbit
  have hmissing : ¬ allBound s.cap = true := fun h => by simp [allBound_iff.1 h k hk] at hbit
  exact exec_init_missing hidle hmissing v

end Sys2Proof.Machine

/-! The reset input (spec/70_reset_and_hazards.md R230, R231): what a step with reset asserted leaves (O16). -/

namespace Sys2Proof.Machine

/-! ### A step with reset asserted (R230) -/

/-- Reset comes before everything else: no PHASE decides, and a command still presented waits. -/
theorem action_reset {s : State} {rest : List HostEvent} (hreset : s.host = .reset :: rest) : action s = .reset := by
  simp [action, hreset]

/-- The one step of reset is used up, and the pulse of `rsp_valid` is over. -/
theorem takeInputs_reset {s : State} {rest : List HostEvent} (hreset : s.host = .reset :: rest) :
    takeInputs s = { s with rsp := none, host := rest } := by
  simp [takeInputs, hreset]

/-- With reset asserted a step only takes its inputs and resets the registers, whatever the engine was doing. -/
theorem step_reset {s : State} {rest : List HostEvent} (hreset : s.host = .reset :: rest) :
    step s = .next (resetBy { s with rsp := none, host := rest }) := by
  rw [step_eq_perform, action_reset hreset, takeInputs_reset hreset, perform]

/-- Settles O16: the reset state has the values of R230, and a step with reset asserted leaves them with the line released
and the trace kept (R231). -/
theorem resetLeavesTheStatedValues : Obligations.ResetLeavesTheStatedValues := by
  refine ⟨⟨rfl, rfl, rfl, rfl, rfl, rfl⟩, fun s rest hreset => ⟨_, step_reset hreset, ?_⟩⟩
  simp

end Sys2Proof.Machine

/-! Words and bytes (spec/30_encoding.md R80 to R91; log 19): decoder and encoder are inverse (O1, O2), the fields of the
frame in RAW (O5), words written out (O4), the status codes (O6). -/

namespace Sys2Proof.Machine

/-! ### The command word in its byte (R80; log 19) -/

/-- The low three bits of a command byte are the command word. -/
theorem extractLsb'_cmdByte (w : BitVec 3) : (cmdByte w).extractLsb' 0 3 = w := by
  revert w; decide

/-- The other five bits of a command byte are 0. -/
theorem extractLsb'_cmdByte_high (w : BitVec 3) : (cmdByte w).extractLsb' 3 5 = 0 := by
  revert w; decide

/-- A byte whose high five bits are 0 is the command byte of its low three. -/
theorem cmdByte_extractLsb' {x : Byte} (h : x.extractLsb' 3 5 = 0) : cmdByte (x.extractLsb' 0 3) = x := by
  revert x; decide

/-- What a command word decodes to is encoded to its byte (R80, R81). -/
theorem encodeBytes_decodeCmd (w : BitVec 3) :
    encodeBytes (decodeCmd w) = some [cmdByte w] ∧ (decodeCmd w).wellFormed = true := by
  revert w; decide

theorem decodeBytesAs_cmdByte (view : FrameView) (w : BitVec 3) :
    decodeBytesAs view [cmdByte w] = .ok (decodeCmd w) := by
  have hcmd : decodeBytes [cmdByte w] = .ok (decodeCmd w) := by
    rw [decodeBytes, extractLsb'_cmdByte, if_pos (extractLsb'_cmdByte_high w)]
  cases view <;> exact hcmd

/-! ### The frame as five bytes (R52, R87 to R89) -/

/-- Past a last byte, an append is what stands before it. -/
theorem extractLsb'_append_byte {w n : Nat} (i : Nat) (x : BitVec w) (y : Byte) :
    (x ++ y).extractLsb' (i + 8) n = x.extractLsb' i n := by
  rw [BitVec.extractLsb'_append_eq_of_le (Nat.le_add_left 8 i), Nat.add_sub_cancel]

/-- Each byte of a frame stands where it was put (R52). -/
theorem decodeFrame_frameOfBytes (x0 x1 x2 x3 x4 : Byte) :
    decodeFrame (frameOfBytes x0 x1 x2 x3 x4) = .frame40 x0 x1 x2 x3 x4 := by
  refine (Instr.frame40.injEq ..).mpr ⟨?_, ?_, ?_, ?_, BitVec.extractLsb'_append_eq_right⟩
  · exact (extractLsb'_append_byte 24 ..).trans ((extractLsb'_append_byte 16 ..).trans
      ((extractLsb'_append_byte 8 ..).trans BitVec.extractLsb'_append_eq_left))
  · exact (extractLsb'_append_byte 16 ..).trans ((extractLsb'_append_byte 8 ..).trans
      ((extractLsb'_append_byte 0 ..).trans BitVec.extractLsb'_append_eq_right))
  · exact (extractLsb'_append_byte 8 ..).trans ((extractLsb'_append_byte 0 ..).trans BitVec.extractLsb'_append_eq_right)
  · exact (extractLsb'_append_byte 0 ..).trans BitVec.extractLsb'_append_eq_right

/-- Variant A's fields are the five bytes (R88). -/
theorem decodeFrameAs_a_frameOfBytes (x0 x1 x2 x3 x4 : Byte) :
    decodeFrameAs .a (frameOfBytes x0 x1 x2 x3 x4) = .frame40A x0 x1 x2 x3 x4 := by
  have h := decodeFrame_frameOfBytes x0 x1 x2 x3 x4
  rw [decodeFrame, Instr.frame40.injEq] at h
  exact (Instr.frame40A.injEq ..).mpr h

/-- Variant B's fields: two bytes of humidity, the sign flag, fifteen bits of magnitude, the checksum (R89). -/
theorem decodeFrameAs_b_frameOfBytes (x0 x1 x2 x3 x4 : Byte) :
    decodeFrameAs .b (frameOfBytes x0 x1 x2 x3 x4) =
      .frame40B (x0 ++ x1) (x2.getLsbD 7) (x2.extractLsb' 0 7 ++ x3) x4 := by
  refine (Instr.frame40B.injEq ..).mpr ⟨?_, ?_, ?_, BitVec.extractLsb'_append_eq_right⟩
  · exact (extractLsb'_append_byte 16 ..).trans ((extractLsb'_append_byte 8 ..).trans
      ((extractLsb'_append_byte 0 ..).trans BitVec.extractLsb'_eq_self))
  · refine BitVec.getLsbD_append.trans ?_
    simp only [BitVec.getLsbD_append]
    rfl
  · rw [← BitVec.extractLsb'_append_extractLsb'_eq_extractLsb' (start₂ := 16) (len₁ := 8) (len₂ := 7) rfl]
    exact congrArg₂ _
      ((extractLsb'_append_byte 8 ..).trans ((extractLsb'_append_byte 0 ..).trans
        (BitVec.extractLsb'_append_eq_of_add_le (by omega))))
      ((extractLsb'_append_byte 0 ..).trans BitVec.extractLsb'_append_eq_right)

/-- The sign flag is bit 7 of its byte (R89). -/
theorem getLsbD_signByte (sgn : Bool) (m : BitVec 15) : (signByte sgn m).getLsbD 7 = sgn :=
  BitVec.getLsbD_append.trans (by simp)

/-- The low bits of the sign's byte are the high bits of the magnitude (R89). -/
theorem extractLsb'_signByte (sgn : Bool) (m : BitVec 15) : (signByte sgn m).extractLsb' 0 7 = m.extractLsb' 8 7 :=
  BitVec.extractLsb'_append_eq_right

/-- A byte is its bit 7 and its low seven bits. -/
theorem signByte_of_byte (x y : Byte) : signByte (x.getLsbD 7) (x.extractLsb' 0 7 ++ y) = x := by
  have hlow : BitVec.extractLsb' 8 7 (x.extractLsb' 0 7 ++ y) = x.extractLsb' 0 7 := BitVec.extractLsb'_append_eq_left
  have hbyte : ∀ x : Byte, (BitVec.ofBool (x.getLsbD 7) ++ x.extractLsb' 0 7 : Byte) = x := by decide
  rw [signByte, hlow, hbyte]

/-! ### The two directions (R80, R87 to R89) -/

/-- Settles O1: a command word is the low bits of its byte, and each field of a frame is read where it was put. -/
theorem encodeThenDecodeGivesTheInstruction : Obligations.EncodeThenDecodeGivesTheInstruction := by
  intro i hi
  cases i with
  | init v => exact ⟨_, rfl, by rw [decodeBytesAs_cmdByte, decodeCmd_cmdWord_init]⟩
  | readSample v => exact ⟨_, rfl, by rw [decodeBytesAs_cmdByte, decodeCmd_cmdWord_readSample]⟩
  | readRaw v => exact ⟨_, rfl, by rw [decodeBytesAs_cmdByte, decodeCmd_cmdWord_readRaw]⟩
  | rsvd v => exact ⟨_, rfl, by rw [decodeBytesAs_cmdByte, decodeCmd_cmdWord_rsvd]⟩
  | frame40 a b d e c => exact ⟨_, rfl, congrArg _ (decodeFrame_frameOfBytes a b d e c)⟩
  | frame40A h x t y c => exact ⟨_, rfl, congrArg _ (decodeFrameAs_a_frameOfBytes h x t y c)⟩
  | frame40B h sgn m c =>
    refine ⟨_, rfl, congrArg Except.ok ?_⟩
    rw [decodeFrameAs_b_frameOfBytes, getLsbD_signByte, extractLsb'_signByte,
      BitVec.extractLsb'_append_extractLsb' (w := 8), BitVec.extractLsb'_append_extractLsb' (w := 7)]
  | _ => cases hi

theorem decodeBytes_cases {bs : List Byte} {i : Instr} (h : decodeBytes bs = .ok i) :
    (∃ w, bs = [cmdByte w] ∧ i = decodeCmd w) ∨ ∃ x0 x1 x2 x3 x4, bs = [x0, x1, x2, x3, x4] ∧ i = .frame40 x0 x1 x2 x3 x4 := by
  unfold decodeBytes at h
  split at h
  · split at h
    · rename_i hhigh
      cases h
      exact .inl ⟨_, by rw [cmdByte_extractLsb' hhigh], rfl⟩
    · cases h
  · cases h
    exact .inr ⟨_, _, _, _, _, rfl, decodeFrame_frameOfBytes ..⟩
  · cases h

theorem decodeBytesAs_cases {view : FrameView} {bs : List Byte} {i : Instr} (h : decodeBytesAs view bs = .ok i) :
    decodeBytes bs = .ok i ∨
      ∃ v x0 x1 x2 x3 x4, bs = [x0, x1, x2, x3, x4] ∧ i = decodeFrameAs v (frameOfBytes x0 x1 x2 x3 x4) := by
  unfold decodeBytesAs at h
  split at h
  · cases h
    exact .inr ⟨_, _, _, _, _, _, rfl, rfl⟩
  · exact .inl h

/-- Settles O2: bytes that decode are a command byte or five bytes of a frame, and their fields together are all of them. -/
theorem decodeThenEncodeGivesTheBytes : Obligations.DecodeThenEncodeGivesTheBytes := by
  intro view bs i h
  obtain h | ⟨v, x0, x1, x2, x3, x4, rfl, rfl⟩ := decodeBytesAs_cases h
  · obtain ⟨w, rfl, rfl⟩ | ⟨x0, x1, x2, x3, x4, rfl, rfl⟩ := decodeBytes_cases h
    · exact encodeBytes_decodeCmd w
    · exact ⟨rfl, rfl⟩
  · cases v with
    | a =>
      rw [decodeFrameAs_a_frameOfBytes]
      exact ⟨rfl, rfl⟩
    | b =>
      rw [decodeFrameAs_b_frameOfBytes]
      refine ⟨?_, rfl⟩
      rw [encodeBytes, signByte_of_byte, BitVec.extractLsb'_append_eq_left, BitVec.extractLsb'_append_eq_right,
        BitVec.extractLsb'_append_eq_right]

/-! ### The fields as numbers (R53, R87 to R90) -/

/-- Bits followed by a byte are 256 times their number plus the byte. -/
theorem toNat_append_byte {n : Nat} (x : BitVec n) (y : Byte) : (x ++ y).toNat = x.toNat * 256 + y.toNat := by
  rw [BitVec.toNat_append, ← Nat.shiftLeft_add_eq_or_of_lt y.isLt, Nat.shiftLeft_eq]

theorem toNat_extractLsb'_low7 (x : Byte) : (x.extractLsb' 0 7).toNat = x.toNat % 128 := by
  simp

/-- Settles O5: RAW is the frame of its five bytes, and a field of two parts is its high part times 256 plus its low one. -/
theorem frameFieldsComeFromTheirBytes : Obligations.FrameFieldsComeFromTheirBytes := by
  intro r
  refine ⟨decodeFrame_frameOfBytes .., decodeFrameAs_a_frameOfBytes .., _, _, decodeFrameAs_b_frameOfBytes .., ?_, ?_⟩
  · exact toNat_append_byte ..
  · rw [toNat_append_byte, toNat_extractLsb'_low7]

/-! ### Words written out (95_test_vectors.md V-CMD, V-FR) and the status codes (R91) -/

/-- Settles O4: each word is a closed term that the decoder evaluates. -/
theorem writtenWordsDecode : Obligations.WrittenWordsDecode := by
  unfold Obligations.WrittenWordsDecode
  decide

/-- Settles O6: the codes by definition, and no constructor has another. -/
theorem statusCodesAreFive : Obligations.StatusCodesAreFive := by
  refine ⟨rfl, rfl, rfl, rfl, rfl, fun st => ?_⟩
  cases st <;> decide

end Sys2Proof.Machine

/-! One step of the machine (spec/40_decoder.md R112; spec/10_state.md R35): what it selects (O12 to O15), the micro-steps of
START, the waits and the sample (O10, O17, O24, O26, O29), the frame rows (O35, O38). -/

namespace Sys2Proof.Machine

/-! ### What a step selects (R35, R112) -/

/-- What a step runs without a reset: the command accepted in it, else what PHASE selects. -/
def selectFor : Option (BitVec 3) → Phase → Action
  | some w, _ => .run (decodeCmd w)
  | none, p => select p

theorem action_of_no_reset {s : State} (h : ∀ rest, s.host ≠ .reset :: rest) :
    action s = selectFor (acceptedWord s) s.phase := by
  unfold action acceptedWord
  split
  · rename_i rest hh
    exact absurd hh (h rest)
  · rename_i w c rest hh
    by_cases hb : busy s = true <;> simp [hb, hh, selectFor]
  · rename_i rest hh
    simp [hh, selectFor]
  · rename_i hh
    simp [hh, selectFor]

theorem step_of_no_reset {s : State} (h : ∀ rest, s.host ≠ .reset :: rest) :
    step s = perform (selectFor (acceptedWord s) s.phase) (takeInputs s) := by
  rw [step_eq_perform, action_of_no_reset h]

/-- A command is accepted in IDLE only (R35). -/
theorem idle_of_acceptedWord {s : State} (h : acceptedWord s ≠ none) : s.phase = .idle := by
  unfold acceptedWord busy at h
  by_contra hb
  simp [hb] at h

/-- In IDLE the word presented is accepted (R35). -/
theorem acceptedWord_idle {s : State} {w : BitVec 3} {c : BitVec 5} {rest : List HostEvent} (hidle : s.phase = .idle)
    (hh : s.host = .command w c :: rest) : acceptedWord s = some w := by
  simp [acceptedWord, busy, hidle, hh]

/-- No command is accepted while BUSY, or where none is presented (R35). -/
theorem acceptedWord_eq_none {s : State} (h : s.phase = .idle → ∀ w c rest, s.host ≠ .command w c :: rest) :
    acceptedWord s = none := by
  unfold acceptedWord busy
  split
  · rfl
  · rename_i hb
    split
    · rename_i w c rest hh
      exact absurd hh (h (by simpa using hb) w c rest)
    · rfl

/-- Where no command is accepted and no reset asserted, PHASE decides (R112). -/
theorem step_of_not_accepted {s : State} (hreset : ∀ rest, s.host ≠ .reset :: rest)
    (hcmd : s.phase = .idle → ∀ w c rest, s.host ≠ .command w c :: rest) :
    step s = perform (select s.phase) (takeInputs s) := by
  rw [step_of_no_reset hreset, acceptedWord_eq_none hcmd, selectFor]

/-- In IDLE the word presented is run, with its `cap` at the input (R35). -/
theorem step_accept {s : State} {w : BitVec 3} {c : BitVec 5} {rest : List HostEvent} (hidle : s.phase = .idle)
    (hh : s.host = .command w c :: rest) :
    step s = exec (decodeCmd w) { s with rsp := none, host := rest, cap := c } := by
  rw [step_of_no_reset (by simp [hh]), acceptedWord_idle hidle hh]
  simp [takeInputs, hh, busy, hidle, selectFor, perform]

/-! ### Commands (R35, R170; rows T0) -/

/-- An idle, initialised engine latches the operation and goes into START (row T0c). -/
theorem startRead_inited {s : State} (hidle : s.phase = .idle) (hinit : s.inited = true) (o : ReadOp) :
    startRead o s = .next { accept s with op := o, phase := .stDir } := by
  simp [startRead, accepted_idle hidle, hinit]

/-- Settles O10: both READ commands are accepted and start a transaction, whatever bit `v` is. -/
theorem readCommandStartsATransaction : Obligations.ReadCommandStartsATransaction := by
  intro v s hidle hinit
  rw [exec_readSample, exec_readRaw, startRead_inited hidle hinit, startRead_inited hidle hinit]
  exact ⟨rfl, rfl⟩

/-- Every command goes through acceptance (R35). -/
theorem exec_cmd3_busy {i : Instr} {s : State} (hi : i.format = .cmd3) (hbusy : s.phase ≠ .idle) : exec i s = .next s := by
  cases i with
  | init v | readSample v | readRaw v | rsvd v =>
    simp only [exec, execInit, execReadSample, execReadRaw, execRsvd, startRead, accepted_busy hbusy]
  | _ => cases hi

/-- Settles O12: acceptance is in IDLE only, as an instruction and at the port. -/
theorem commandWhileBusyIsIgnored : Obligations.CommandWhileBusyIsIgnored := by
  refine ⟨fun i s => exec_cmd3_busy, fun s w c rest hbusy hh => ?_⟩
  simp [action, takeInputs, busy, hh, hbusy]

/-! ### Frame rows as instructions (R87 to R89; log 10) -/

/-- Judging the frame that stands in RAW is CHECKSUM. -/
theorem exec_decodeFrame_raw (s : State) : exec (decodeFrame s.raw.frame) s = exec .checksum s := by
  have hframe : decodeFrame s.raw.frame = .frame40 s.raw.b0 s.raw.b1 s.raw.b2 s.raw.b3 s.raw.b4 :=
    decodeFrame_frameOfBytes ..
  rw [hframe]
  rfl

/-- FRAME40.B's fields back in RAW are its bytes (R89). -/
theorem exec_frame40B_of_bytes (x0 x1 x2 x3 x4 : Byte) (s : State) :
    exec (.frame40B (x0 ++ x1) (x2.getLsbD 7) (x2.extractLsb' 0 7 ++ x3) x4) s =
      extractFrame .b { s with raw := ⟨x0, x1, x2, x3, x4⟩ } := by
  rw [exec, execFrame40B, signByte_of_byte, BitVec.extractLsb'_append_eq_left, BitVec.extractLsb'_append_eq_right,
    BitVec.extractLsb'_append_eq_right]

/-- Reading the frame that stands in RAW under a variant extracts both values. -/
theorem exec_decodeFrameAs_raw (v : Variant) (s : State) : exec (decodeFrameAs v s.raw.frame) s = extractFrame v s := by
  have hframe : s.raw.frame = frameOfBytes s.raw.b0 s.raw.b1 s.raw.b2 s.raw.b3 s.raw.b4 := rfl
  rw [hframe]
  cases v with
  | a =>
    rw [decodeFrameAs_a_frameOfBytes]
    rfl
  | b => rw [decodeFrameAs_b_frameOfBytes, exec_frame40B_of_bytes]

/-- Settles O35: FRAME40 puts its bytes into RAW, and the frame check judges them by their sums. -/
theorem frameWordIsChecked : Obligations.FrameWordIsChecked := fun _ _ _ _ _ _ =>
  ⟨fun hsum hop => checkFrame_readRaw ((sumOk_iff _).2 hsum) hop,
    fun hsum hop => checkFrame_readSample ((sumOk_iff _).2 hsum) hop,
    fun hsum => checkFrame_bad (mt (sumOk_iff _).1 hsum)⟩

/-- Settles O38: the fields go into RAW as the encoder lays them out, and both values are extracted from there. -/
theorem frameFieldsAreExtracted : Obligations.FrameFieldsAreExtracted := by
  refine ⟨fun h x t y c s => rfl, fun h sgn m c s => ?_⟩
  have hhum : (h.extractLsb' 8 8).toNat * 256 + (h.extractLsb' 0 8).toNat = h.toNat := by
    rw [← toNat_append_byte, BitVec.extractLsb'_append_extractLsb' (w := 8)]
  have hmag : (signByte sgn m).toNat % 128 * 256 + (m.extractLsb' 0 8).toNat = m.toNat := by
    rw [← toNat_extractLsb'_low7, extractLsb'_signByte, ← toNat_append_byte,
      BitVec.extractLsb'_append_extractLsb' (w := 7)]
  refine ⟨⟨_, _, signByte sgn m, _, c⟩, hhum, getLsbD_signByte sgn m, hmag, rfl, ?_⟩
  have htemp : temperature .b (signByte sgn m) (m.extractLsb' 0 8) =
      if sgn then negate (f32 m.toNat 10) else f32 m.toNat 10 := by
    rw [temperature, tempSign, getLsbD_signByte, tempMagnitude_eq, hmag]
  have hhumidity : humidity .b (h.extractLsb' 8 8) (h.extractLsb' 0 8) = f32 h.toNat 10 := by
    rw [humidity, field16, hhum]
  rw [← htemp, ← hhumidity]
  rfl

/-! ### What PHASE selects, instruction by instruction (R112) -/

/-- Inside a bit RDFRAME is RDBIT (R125). -/
theorem exec_rdframe_inBit {s : State} (hp : inBit s.phase = true) : exec .rdframe s = exec .rdbit s := if_pos hp

/-- Settles O14: without reset and command PHASE decides; RESPONSE, RDBIT, RDFRAME and the frame rows do there what the
selected operation does. -/
theorem stepRunsWhatPhaseSelects : Obligations.StepRunsWhatPhaseSelects := by
  intro s hreset hcmd
  have hstep := step_of_not_accepted hreset hcmd
  have hwait : ∀ k, s.phase = .rd k ∨ s.phase = .tk k → step s = exec (.wait k) (takeInputs s) := by
    intro k hp
    obtain hp | hp := hp <;> rw [hstep, hp] <;> cases k <;> rfl
  have hsame : ∀ {i : Instr} {k : WaitId}, RunsWait i k → s.phase = .rd k ∨ s.phase = .tk k →
      step s = exec i (takeInputs s) := fun hi hp =>
    (hwait _ hp).trans (hi (takeInputs s) (by rwa [takeInputs_phase])).symm
  have hframe : inBit s.phase = true → exec .rdframe (takeInputs s) = exec .rdbit (takeInputs s) := fun hin =>
    exec_rdframe_inBit (by rwa [takeInputs_phase])
  refine ⟨fun hp => ?_, fun hp => ?_, hwait, hsame runsWait_w1, hsame runsWait_w2, hsame runsWait_w3,
    hsame runsWait_w4, hsame runsWait_w5, fun hp => ?_, fun hp => ?_, fun hp => ?_, fun hp => ?_, fun hp => ?_, fun hp => ?_⟩
  · rw [hstep, hp]
    rfl
  · simp only [List.mem_cons, List.not_mem_nil, or_false] at hp
    obtain hp | hp | hp | hp | hp | hp := hp <;> rw [hstep, hp] <;> rfl
  · have hk : ∃ k ∈ [WaitId.w1, .w2, .w3], s.phase = .rd k ∨ s.phase = .tk k := by simpa [or_assoc] using hp
    obtain ⟨k, hk, hp⟩ := hk
    exact hsame (runsWait_response hk) hp
  · simp only [List.mem_cons, List.not_mem_nil, or_false] at hp
    have hin : inBit s.phase = true := by obtain hp | hp | hp | hp | hp | hp := hp <;> rw [hp] <;> rfl
    have hk : (∃ k, (k = .w4 ∨ k = .w5) ∧ (s.phase = .rd k ∨ s.phase = .tk k)) ∨ s.phase = .bDly ∨ s.phase = .bSmp := by
      simp only [or_and_right, exists_or, exists_eq_left]
      tauto
    rw [hframe hin, and_self]
    obtain ⟨k, hk, hp⟩ | hp | hp := hk
    · exact hsame (runsWait_rdbit hk) hp
    · exact hstep.trans (by rw [hp]; rfl)
    · exact hstep.trans (by rw [hp]; rfl)
  · rw [hstep, hp]
    refine ⟨rfl, ?_⟩
    rw [← takeInputs_raw s, exec_decodeFrame_raw]
    rfl
  · rw [hstep, hp]
    refine ⟨rfl, ?_⟩
    rw [← takeInputs_raw s, ← takeInputs_variant s, exec_decodeFrameAs_raw]
    rfl
  · rw [hstep, hp]
    rfl
  · obtain hp | hp := hp <;> rw [hstep, hp] <;> rfl

/-! ### Words placed for the next step (log 18) -/

/-- A command word of three bits fits its byte. -/
theorem cmdByte_ofNat {w : Nat} (hw : w < 8) : cmdByte (BitVec.ofNat 3 w) = BitVec.ofNat 8 w := by
  interval_cases w <;> rfl

theorem decodeTableWord_command {nbits w : Nat} (hpos : 0 < nbits) (hbits : nbits ≤ 8) (hw : w < 8) :
    decodeTableWord nbits w = some (decodeCmd (BitVec.ofNat 3 w)) := by
  have hbyte : tableBytes nbits w = [cmdByte (BitVec.ofNat 3 w)] := by
    rw [tableBytes, if_pos hbits, if_pos (by omega), cmdByte_ofNat hw]
  have hdecode : decodeBytes [cmdByte (BitVec.ofNat 3 w)] = .ok (decodeCmd (BitVec.ofNat 3 w)) :=
    decodeBytesAs_cmdByte .bytes _
  rw [decodeTableWord, if_neg (by omega), hbyte, hdecode]
  rfl

theorem decodeTableWord_frame {w : Nat} (hw : w < 2 ^ 40) :
    decodeTableWord 40 w = some (decodeFrame (BitVec.ofNat 40 w)) := by
  rw [decodeTableWord, if_neg (by decide), tableBytes, if_neg (by decide), if_pos ⟨le_rfl, hw⟩, decodeBytes,
    decodeFrame_frameOfBytes]
  rfl

/-- Settles O13: a command placed at the port is accepted in IDLE; a frame placed in RAW is what CHECKSUM judges. -/
theorem stepRunsTheFetchedWord : Obligations.StepRunsTheFetchedWord := by
  refine ⟨fun s w c rest => step_accept, fun s nbits w hpos hbits hw => ?_, fun s w hw => ?_⟩
  · refine ⟨_, decodeTableWord_command hpos hbits hw, ?_⟩
    rw [State.withFetchWord, if_pos hbits, if_pos hw]
    exact step_accept (s := presentCommand _ s) rfl rfl
  · refine ⟨_, decodeTableWord_frame hw, ?_⟩
    rw [State.withFetchWord, if_neg (by decide), if_pos ⟨le_rfl, hw⟩]
    exact step_of_not_accepted (s := presentFrame _ s) nofun nofun

/-! ### Completion (R36; rows T19, T20) -/

theorem step_complete {s : State} (hh : s.host = []) (hp : s.phase = .done ∨ s.phase = .fail) :
    step s = .next (deliver { s with rsp := none }) := by
  have hsel : select s.phase = .complete := by obtain hp | hp := hp <;> rw [hp] <;> rfl
  rw [step_of_not_accepted (by simp [hh]) (by simp [hh]), takeInputs_quiet hh, hsel, perform]

/-- Settles O15: DONE and FAIL deliver, DONE the data that `due` names. -/
theorem completionDeliversTheResponse : Obligations.CompletionDeliversTheResponse := by
  intro s hh
  refine ⟨fun hp => ?_, fun hp hdue => ?_, fun hp hdue => ?_, fun hp hdue => ?_⟩
  · simp [step_complete hh (.inr hp), deliver, hp]
  all_goals simp [step_complete hh (.inl hp), deliver, hp, dueData, hdue, Raw.frame]

/-! ### The micro-steps of START, the waits and the sample -/

theorem exec_start_write_released {s : State} (hp : s.phase = .stLow ∨ s.phase = .stHigh) (ho : s.lineOE = false) :
    exec .start s = .fault .writeWhileReleased := by
  obtain hp | hp := hp <;> simp [exec, execStart, hp, wr, ho]

/-- Settles O17: row by row. -/
theorem startMicroSteps : Obligations.StartMicroSteps := fun _ =>
  ⟨exec_start_stDir, exec_start_stLow, exec_start_stHold, exec_start_stHigh, exec_start_stRelHold, exec_start_stRelease,
    exec_start_write_released⟩

/-- While the engine drives, a read has no meaning (R58). -/
theorem rd_driven {s : State} (h : s.lineOE = true) (k : Level → State → Result) : rd s k = .fault .readWhileDriving := by
  simp [rd, h]

/-- Settles O24: a wait's first action in `Wk_RD`, and the sample, are reads. -/
theorem readWhileDrivingFaults : Obligations.ReadWhileDrivingFaults := by
  intro s ho
  refine ⟨fun k hp => ?_, fun hp => ?_⟩
  · rw [runsWait_wait k s (.inl hp), waitStep_rd hp, waitRead, rd_driven ho]
  · simp only [exec, execRdbit, bitStep, hp, sampleBit, rd_driven ho]

/-- From outside a wait, its micro-step is its first read with ELAPSED 0 (log 9). -/
theorem waitStep_outside {k : WaitId} {s : State} (hp : s.phase ∉ [Phase.rd k, .tk k]) :
    waitStep k s = waitStep k { s with elapsed := 0, phase := .rd k } := by
  simp only [List.mem_cons, List.not_mem_nil, or_false, not_or] at hp
  obtain ⟨hrd, htk⟩ := hp
  simp [waitStep, enterWait, hrd, htk]

theorem execStart_outside {s : State} (hp : s.phase ∉ [Phase.stDir, .stLow, .stHold, .stHigh, .stRelHold, .stRelease]) :
    exec .start s = .next { dir true s with phase := .stLow } := by
  simp only [exec, execStart]
  split <;> simp_all

theorem execResponse_outside {s : State} (hp : s.phase ∉ [Phase.rd .w1, .tk .w1, .rd .w2, .tk .w2, .rd .w3, .tk .w3]) :
    exec .response s = exec .w1 { s with elapsed := 0, phase := .rd .w1 } := by
  have hw1 : exec .response s = waitStep .w1 s := by
    simp only [exec, execResponse]
    split <;> simp_all
  rw [hw1, waitStep_outside (by simp_all)]
  rfl

/-- From outside a bit, its micro-step is the first read of W4 (log 9). -/
theorem bitStep_outside {s : State} (hp : s.phase ∉ [Phase.rd .w4, .tk .w4, .bDly, .bSmp, .rd .w5, .tk .w5]) :
    bitStep s = exec .w4 { s with elapsed := 0, phase := .rd .w4 } := by
  have hw4 : bitStep s = waitStep .w4 s := by
    unfold bitStep
    split <;> simp_all
  rw [hw4, waitStep_outside (by simp_all)]
  rfl

theorem inBit_eq_false {s : State} (hp : s.phase ∉ [Phase.rd .w4, .tk .w4, .bDly, .bSmp, .rd .w5, .tk .w5]) :
    inBit s.phase = false := by
  unfold inBit
  split <;> simp_all

/-- Settles O26: outside the PHASEs of a micro-operation its case split falls through to its first micro-step. -/
theorem microOperationsStartAtTheirFirstMicroStep : Obligations.MicroOperationsStartAtTheirFirstMicroStep := fun s =>
  ⟨execStart_outside, fun _ => waitStep_outside, waitStep_outside, waitStep_outside, waitStep_outside, waitStep_outside,
    waitStep_outside, execResponse_outside, fun hp =>
      ⟨bitStep_outside hp, (if_neg (by simp [inBit_eq_false hp])).trans (bitStep_outside hp)⟩⟩

/-! ### The sample (rows T11, T12) -/

theorem exec_rdbit_bDly {s : State} (hp : s.phase = .bDly) :
    exec .rdbit s = .next { s with trace := .dlyUs s.params.tSampleUs :: s.trace, phase := .bSmp } := by
  simp [exec, execRdbit, bitStep, hp, delayUs]

/-- Settles O29: one delay, then one read stored in one bit of RAW. -/
theorem sampleMicroSteps : Obligations.SampleMicroSteps := by
  intro i hi s
  have hrdbit : s.phase = .bDly ∨ s.phase = .bSmp → exec i s = exec .rdbit s := by
    intro hp
    simp only [List.mem_cons, List.not_mem_nil, or_false] at hi
    obtain rfl | rfl := hi
    · rfl
    · exact exec_rdframe_inBit (by obtain hp | hp := hp <;> rw [hp] <;> rfl)
  refine ⟨fun hp => ?_, fun hp ho => ?_⟩
  · rw [hrdbit (.inl hp), exec_rdbit_bDly hp]
  · exact ⟨_, (hrdbit (.inr hp)).trans (exec_rdbit_bSmp hp ho),
      fun j n hn => Raw.getLsbD_putBit _ _ _ _ _ _ hn, rfl⟩

end Sys2Proof.Machine

/-! The transition table of spec/40_decoder.md R112 as what a step does (O54), and the invariant of the engine
(spec/10_state.md sections 4, 5, 7; O51 to O53). -/

namespace Sys2Proof.Machine

/-! ### Each row is what the machine performs (R112) -/

-- Decoding a command word by its `op` bits (R81).
theorem decodeCmd_of_init {w : BitVec 3} (h : cmdOp w = 0b01#2) : decodeCmd w = .init (variantOfBit (cmdV w)) := by
  rw [decodeCmd, h]
  rfl
theorem decodeCmd_of_readSample {w : BitVec 3} (h : cmdOp w = 0b10#2) : decodeCmd w = .readSample (cmdV w) := by
  rw [decodeCmd, h]
  rfl
theorem decodeCmd_of_readRaw {w : BitVec 3} (h : cmdOp w = 0b11#2) : decodeCmd w = .readRaw (cmdV w) := by
  rw [decodeCmd, h]
  rfl
theorem decodeCmd_of_rsvd {w : BitVec 3} (h : cmdOp w = 0b00#2) : decodeCmd w = .rsvd (cmdV w) := by
  rw [decodeCmd, h]
  rfl

/-- A micro-step of a wait selected by PHASE. -/
theorem perform_select_wait {k : WaitId} {s : State} (hp : s.phase = .rd k ∨ s.phase = .tk k) :
    perform (select s.phase) s = waitStep k s := by
  obtain hp | hp := hp <;> rw [hp] <;> cases k <;> rfl

theorem perform_select_read {k : WaitId} {s : State} (hp : s.phase = .rd k) (ho : s.lineOE = false) :
    perform (select s.phase) s = .next (if s.nextLevel = waitLevel k then { s.afterRead with phase := .tk k }
      else waitExit k s.afterRead) := by
  rw [perform_select_wait (.inl hp), waitStep_rd hp, waitRead_released ho]

theorem perform_select_tick {k : WaitId} {s : State} (hp : s.phase = .tk k) :
    perform (select s.phase) s = waitTick k s := by
  rw [perform_select_wait (.inr hp), waitStep_tk hp]

/-- In a state that meets the invariant, a row of the table is what the machine performs. -/
theorem TableRow.perform_eq {c : Option (BitVec 3)} {s u : State} (h : TableRow c s u) (hs : s.Inv) :
    perform (selectFor c s.phase) s = .next u := by
  have hline : ∀ {p}, s.phase = p → s.lineOE = driving p := fun hp => hp ▸ hs.oe
  cases h with
  | stay hp | t16 hp =>
    rw [selectFor, hp]
    rfl
  | t0a hp hop hcap =>
    rw [selectFor, perform, decodeCmd_of_init hop, exec_init_allBound hp (by rw [hcap]; rfl)]
    rfl
  | t0b hp hop hcap =>
    rw [selectFor, perform, decodeCmd_of_init hop, exec_init_missing hp (by simpa [allBound] using hcap)]
    rfl
  | t0cSample hp hop hi =>
    rw [selectFor, perform, decodeCmd_of_readSample hop, exec_readSample, startRead_inited hp hi]
    rfl
  | t0cRaw hp hop hi =>
    rw [selectFor, perform, decodeCmd_of_readRaw hop, exec_readRaw, startRead_inited hp hi]
    rfl
  | t0d hp hop hi =>
    obtain hop | hop := hop
    · rw [selectFor, perform, decodeCmd_of_readSample hop, exec_readSample, startRead_uninited hp hi]
      rfl
    · rw [selectFor, perform, decodeCmd_of_readRaw hop, exec_readRaw, startRead_uninited hp hi]
      rfl
  | t0e hp hop =>
    rw [selectFor, perform, decodeCmd_of_rsvd hop, exec_rsvd, accepted_idle hp]
    rfl
  | t1 hp => rw [selectFor, hp]; exact exec_start_stDir hp
  | t2 hp => rw [selectFor, hp]; exact exec_start_stLow hp (hline hp)
  | t3 hp => rw [selectFor, hp]; exact exec_start_stHold hp
  | t4 hp => rw [selectFor, hp]; exact exec_start_stHigh hp (hline hp)
  | t5 hp => rw [selectFor, hp]; exact exec_start_stRelHold hp
  | t6 hp => rw [selectFor, hp]; exact exec_start_stRelease hp
  | t7 hp hv => rw [selectFor, perform_select_read hp (hline hp), if_pos hv]
  | t8w1 hp hv | t8w2 hp hv | t8w3 hp hv | t8w4 hp hv =>
    rw [selectFor, perform_select_read hp (hline hp), if_neg (by simp [hv, waitLevel])]
    rfl
  | t8w5Bit hp hv hbit =>
    rw [selectFor, perform_select_read hp (hline hp), if_neg (by simp [hv, waitLevel]), waitExit, advance_eq,
      if_pos (by exact hbit)]
    rfl
  | t8w5Byte hp hv hbit hbyte =>
    rw [selectFor, perform_select_read hp (hline hp), if_neg (by simp [hv, waitLevel]), waitExit, advance_eq,
      if_neg (by exact not_not_intro hbit), if_pos (by exact hbyte)]
    rfl
  | t8w5Last hp hv hbit hbyte =>
    rw [selectFor, perform_select_read hp (hline hp), if_neg (by simp [hv, waitLevel]), waitExit, advance_eq,
      if_neg (by exact not_not_intro hbit), if_neg (by exact not_not_intro hbyte)]
  | t9 hp hc =>
    rw [selectFor, perform_select_tick hp, waitTick, if_pos hc]
    rfl
  | t10 hp hc =>
    rw [selectFor, perform_select_tick hp, waitTick, if_neg (Nat.not_le.2 hc)]
    rfl
  | t11 hp => rw [selectFor, hp]; exact exec_rdbit_bDly hp
  | t12 hp => rw [selectFor, hp]; exact exec_rdbit_bSmp hp (hline hp)
  | t13 hp hsum hop => rw [selectFor, hp]; exact checkFrame_readRaw ((sumOk_iff _).2 hsum) hop
  | t14 hp hsum hop => rw [selectFor, hp]; exact checkFrame_readSample ((sumOk_iff _).2 hsum) hop
  | t15 hp hsum => rw [selectFor, hp]; exact checkFrame_bad (mt (sumOk_iff _).1 hsum)
  | t17 hp ht hh =>
    obtain ⟨htemp, hhum⟩ := hs.extracted hp
    rw [selectFor, hp, select, perform, exec_rangeCheck_extracted htemp hhum, if_pos (inRange_iff.2 ⟨ht.1, ht.2, hh⟩)]
    rfl
  | t18 hp hout =>
    obtain ⟨htemp, hhum⟩ := hs.extracted hp
    rw [selectFor, hp, select, perform, exec_rangeCheck_extracted htemp hhum,
      if_neg (by rwa [inRange_iff, ← and_assoc])]
    rfl
  | t19 hp | t20 hp =>
    rw [selectFor, hp]
    simp [select, perform, deliver, hp]

/-! ### Some row always applies (R112) -/

/-- In IDLE every command word has its row. -/
theorem exists_tableRow_command {s : State} (hp : s.phase = .idle) (w : BitVec 3) : ∃ u, TableRow (some w) s u := by
  have hop : cmdOp w = 0b00#2 ∨ cmdOp w = 0b01#2 ∨ cmdOp w = 0b10#2 ∨ cmdOp w = 0b11#2 := by
    revert w; decide
  obtain hop | hop | hop | hop := hop
  · exact ⟨_, .t0e hp hop⟩
  · by_cases hcap : s.cap = 0b11111#5
    · exact ⟨_, .t0a hp hop hcap⟩
    · exact ⟨_, .t0b hp hop hcap⟩
  · cases hi : s.inited
    · exact ⟨_, .t0d hp (.inl hop) hi⟩
    · exact ⟨_, .t0cSample hp hop hi⟩
  · cases hi : s.inited
    · exact ⟨_, .t0d hp (.inr hop) hi⟩
    · exact ⟨_, .t0cRaw hp hop hi⟩

/-- At the exit of W5 one of the three advances applies (R124). -/
theorem exists_tableRow_advance {s : State} (hp : s.phase = .rd .w5) (hv : s.nextLevel = false) :
    ∃ u, TableRow none s u := by
  by_cases hbit : s.bitIdx = 0
  · by_cases hbyte : s.byteIdx = 4
    · exact ⟨_, .t8w5Last hp hv hbit hbyte⟩
    · exact ⟨_, .t8w5Byte hp hv hbit hbyte⟩
  · exact ⟨_, .t8w5Bit hp hv hbit⟩

theorem exists_tableRow_read {k : WaitId} {s : State} (hp : s.phase = .rd k) : ∃ u, TableRow none s u := by
  by_cases hv : s.nextLevel = waitLevel k
  · exact ⟨_, .t7 hp hv⟩
  · cases k with
    | w1 => exact ⟨_, .t8w1 hp (by simpa [waitLevel] using hv)⟩
    | w2 => exact ⟨_, .t8w2 hp (by simpa [waitLevel] using hv)⟩
    | w3 => exact ⟨_, .t8w3 hp (by simpa [waitLevel] using hv)⟩
    | w4 => exact ⟨_, .t8w4 hp (by simpa [waitLevel] using hv)⟩
    | w5 => exact exists_tableRow_advance hp (by simpa [waitLevel] using hv)

theorem exists_tableRow_check {s : State} (hp : s.phase = .check) : ∃ u, TableRow none s u := by
  by_cases hsum : (s.raw.b0.toNat + s.raw.b1.toNat + s.raw.b2.toNat + s.raw.b3.toNat) % 256 = s.raw.b4.toNat
  · cases hop : s.op
    · exact ⟨_, .t14 hp hsum hop⟩
    · exact ⟨_, .t13 hp hsum hop⟩
  · exact ⟨_, .t15 hp hsum⟩

theorem exists_tableRow_range {s : State} (hp : s.phase = .range) : ∃ u, TableRow none s u := by
  by_cases hin : (tMin s.params s.variant ≤ tX10 s.variant s.raw.b2 s.raw.b3 ∧
      tX10 s.variant s.raw.b2 s.raw.b3 ≤ tMax s.params s.variant) ∧
    (hMin s.params s.variant ≤ hX10 s.variant s.raw.b0 s.raw.b1 ∧
      hX10 s.variant s.raw.b0 s.raw.b1 ≤ hMax s.params s.variant)
  · exact ⟨_, .t17 hp hin.1 hin.2⟩
  · exact ⟨_, .t18 hp hin⟩

/-- Every PHASE has a row that applies without a command. -/
theorem exists_tableRow_phase (s : State) : ∃ u, TableRow none s u := by
  cases hp : s.phase with
  | idle => exact ⟨_, .stay hp⟩
  | stDir => exact ⟨_, .t1 hp⟩
  | stLow => exact ⟨_, .t2 hp⟩
  | stHold => exact ⟨_, .t3 hp⟩
  | stHigh => exact ⟨_, .t4 hp⟩
  | stRelHold => exact ⟨_, .t5 hp⟩
  | stRelease => exact ⟨_, .t6 hp⟩
  | rd k => exact exists_tableRow_read hp
  | tk k =>
    by_cases hc : s.elapsed + s.params.tickUs ≤ ceiling s.params k
    · exact ⟨_, .t9 hp hc⟩
    · exact ⟨_, .t10 hp (Nat.not_le.1 hc)⟩
  | bDly => exact ⟨_, .t11 hp⟩
  | bSmp => exact ⟨_, .t12 hp⟩
  | check => exact exists_tableRow_check hp
  | extract => exact ⟨_, .t16 hp⟩
  | range => exact exists_tableRow_range hp
  | done => exact ⟨_, .t19 hp⟩
  | fail => exact ⟨_, .t20 hp⟩

theorem exists_tableRow {c : Option (BitVec 3)} {s : State} (h : c ≠ none → s.phase = .idle) : ∃ u, TableRow c s u := by
  cases c with
  | none => exact exists_tableRow_phase s
  | some w => exact exists_tableRow_command (h nofun) w

/-! ### The step is the one row (O54) -/

/-- Taking the inputs keeps the invariant: no register changes, and the pulse is over. -/
theorem State.Inv.takeInputs {s : State} (h : s.Inv) : (takeInputs s).Inv where
  oe := by simpa using h.oe
  out := by simpa using h.out
  ready := by simpa using h.ready
  within := by simpa using h.within
  doneOk := by simpa using h.doneOk
  failed := by simpa using h.failed
  summed := by simpa using h.summed
  extracted := by simpa using h.extracted
  dueRaw := by simpa using h.dueRaw
  duePair := by simpa using h.duePair
  pulse := by simp

/-- Settles O54: some row applies, and whatever row applies is what the machine performs, so there is one only. -/
theorem stepIsTheTransitionTable : Obligations.StepIsTheTransitionTable := by
  intro s hs hreset
  have hrow : ∀ u, TableRow (acceptedWord s) (takeInputs s) u → step s = .next u := fun u hu => by
    rw [step_of_no_reset hreset, ← takeInputs_phase s]
    exact hu.perform_eq hs.takeInputs
  obtain ⟨t, ht⟩ := exists_tableRow (s := takeInputs s) fun h => (takeInputs_phase s).trans (idle_of_acceptedWord h)
  have hstep := hrow t ht
  refine ⟨t, hstep, fun u => ⟨fun hu => ?_, fun hu => hu ▸ ht⟩⟩
  exact Host.Outcome.next.inj ((hrow u hu).symm.trans hstep)

/-- A step is a reset, or a row of the table (R112, R230). -/
theorem step_of_inv {s : State} (hs : s.Inv) : ∃ t, step s = .next t ∧
    (t = resetBy (takeInputs s) ∨ TableRow (acceptedWord s) (takeInputs s) t) := by
  by_cases hreset : ∃ rest, s.host = .reset :: rest
  · obtain ⟨rest, hh⟩ := hreset
    exact ⟨_, step_reset hh, .inl (by rw [takeInputs_reset hh])⟩
  · obtain ⟨t, hstep, ht⟩ := stepIsTheTransitionTable s hs (not_exists.1 hreset)
    exact ⟨t, hstep, .inr ((ht t).2 rfl)⟩

/-- Settles O53: a reset always answers, and without one some row of the table applies. -/
theorem theMachineNeverStops : Obligations.TheMachineNeverStops := fun _ hs =>
  let ⟨t, hstep, _⟩ := step_of_inv hs
  ⟨t, hstep⟩

/-! ### The invariant at reset (O51) -/

/-- The invariant in IDLE: the line released at its idle level. -/
theorem State.Inv.of_idle {s : State} (hp : s.phase = .idle) (ho : s.lineOE = false) (hl : s.lineOut = true) :
    s.Inv := by
  constructor <;> simp [hp, ho, hl, driving, drivenLow, inTransaction]

/-- Settles O51: after reset the engine is idle with the line released at its idle level. -/
theorem resetMeetsTheInvariant : Obligations.ResetMeetsTheInvariant := .of_idle rfl rfl rfl

/-! ### Every row keeps the invariant (O52) -/

/-- The invariant in FAIL. -/
theorem State.Inv.of_fail {s : State} (hp : s.phase = .fail) (ho : s.lineOE = false) (hl : s.lineOut = true)
    (hst : s.status ≠ .ok) (hr : s.rsp = none) : s.Inv := by
  constructor <;> simp [hp, ho, hl, hst, hr, driving, drivenLow, inTransaction]

/-- `PHASE` is on the line or before the frame check. -/
def onLine : Phase → Bool
  | .stDir => true
  | .stLow => true
  | .stHold => true
  | .stHigh => true
  | .stRelHold => true
  | .stRelease => true
  | .rd _ => true
  | .tk _ => true
  | .bDly => true
  | .bSmp => true
  | .check => true
  | _ => false

/-- The invariant of a transaction before the frame check: the clauses about its evaluation say nothing. -/
theorem State.Inv.of_onLine {s : State} (hp : onLine s.phase = true) (ho : s.lineOE = driving s.phase)
    (hl : s.lineOut = !drivenLow s.phase) (hi : s.inited = true)
    (hw : ∀ k, s.phase = .rd k ∨ s.phase = .tk k → s.elapsed ≤ ceiling s.params k) (hr : s.rsp = none) : s.Inv := by
  have hne : ∀ p, onLine p = false → s.phase ≠ p := fun p hf h => by rw [h, hf] at hp; cases hp
  have hdone := hne .done rfl
  have hfail := hne .fail rfl
  have hext := hne .extract rfl
  have hrange := hne .range rfl
  constructor <;> simp_all

/-- The invariant inside a wait. -/
theorem State.Inv.of_wait {s : State} {k : WaitId} (hp : s.phase = .rd k ∨ s.phase = .tk k) (ho : s.lineOE = false)
    (hl : s.lineOut = true) (hi : s.inited = true) (hw : s.elapsed ≤ ceiling s.params k) (hr : s.rsp = none) : s.Inv := by
  obtain hp | hp := hp <;> refine .of_onLine ?_ ?_ ?_ hi ?_ hr <;> simp [hp, ho, hl, hw, onLine, driving, drivenLow]

/-- The invariant outside START and the waits, on the line or before the frame check. -/
theorem State.Inv.of_sample {s : State} (hp : s.phase = .bDly ∨ s.phase = .bSmp ∨ s.phase = .check)
    (ho : s.lineOE = false) (hl : s.lineOut = true) (hi : s.inited = true) (hr : s.rsp = none) : s.Inv := by
  obtain hp | hp | hp := hp <;> refine .of_onLine ?_ ?_ ?_ hi ?_ hr <;> simp [hp, ho, hl, onLine, driving, drivenLow]

/-- The invariant between the frame check and the range test, for READ_SAMPLE (R171). -/
theorem State.Inv.of_extractor {s : State} (hp : s.phase = .extract ∨ s.phase = .range) (ho : s.lineOE = false)
    (hl : s.lineOut = true) (hi : s.inited = true) (hsum : sumOk s.raw = true) (hop : s.op = .readSample)
    (hx : s.phase = .range →
      s.temp = temperature s.variant s.raw.b2 s.raw.b3 ∧ s.hum = humidity s.variant s.raw.b0 s.raw.b1)
    (hr : s.rsp = none) : s.Inv := by
  obtain hp | hp := hp <;> constructor <;> simp_all [driving, drivenLow]

/-- The invariant in DONE. -/
theorem State.Inv.of_done {s : State} (hp : s.phase = .done) (ho : s.lineOE = false) (hl : s.lineOut = true)
    (hst : s.status = .ok) (hraw : s.due = .raw → sumOk s.raw = true)
    (hpair : s.due = .pair → sumOk s.raw = true ∧
      s.temp = temperature s.variant s.raw.b2 s.raw.b3 ∧ s.hum = humidity s.variant s.raw.b0 s.raw.b1 ∧
      inRange s.params s.variant (tX10 s.variant s.raw.b2 s.raw.b3) (hX10 s.variant s.raw.b0 s.raw.b1) = true)
    (hr : s.rsp = none) : s.Inv := by
  constructor <;> simp_all [driving, drivenLow, inTransaction]

/-- A row of the table keeps the invariant. -/
theorem TableRow.keeps_inv {c : Option (BitVec 3)} {s u : State} (h : TableRow c s u) (hs : s.Inv) (hr : s.rsp = none) :
    u.Inv := by
  have hoe : ∀ {p}, s.phase = p → s.lineOE = driving p := fun hp => hp ▸ hs.oe
  have hout : ∀ {p}, s.phase = p → s.lineOut = !drivenLow p := fun hp => hp ▸ hs.out
  have hi : ∀ {p}, s.phase = p → inTransaction p = true → s.inited = true := fun hp => hp ▸ hs.ready
  cases h with
  | stay hp => exact hs
  | t0a hp => exact .of_done rfl (hoe hp) (hout hp) rfl nofun nofun hr
  | t0b hp | t0d hp | t0e hp | t10 hp | t15 hp | t18 hp => exact .of_fail rfl (hoe hp) (hout hp) nofun hr
  | t0cSample hp hop hinit | t0cRaw hp hop hinit => exact .of_onLine rfl (hoe hp :) (hout hp :) hinit (by simp) hr
  | t1 hp => exact .of_onLine rfl rfl (hout hp :) (hi hp rfl) (by simp) hr
  | t2 hp => exact .of_onLine rfl (hoe hp :) rfl (hi hp rfl) (by simp) hr
  | t3 hp | t5 hp => exact .of_onLine rfl (hoe hp :) (hout hp :) (hi hp rfl) (by simp) hr
  | t4 hp => exact .of_onLine rfl (hoe hp :) rfl (hi hp rfl) (by simp) hr
  | t6 hp => exact .of_wait (.inl rfl) rfl (hout hp) (hi hp rfl) (Nat.zero_le _) hr
  | t7 hp => exact .of_wait (.inr rfl) (hoe hp) (hout hp) (hi hp rfl) (hs.within _ (.inl hp)) hr
  | t8w1 hp | t8w2 hp | t8w3 hp | t8w5Bit hp | t8w5Byte hp | t12 hp =>
    exact .of_wait (.inl rfl) (hoe hp) (hout hp) (hi hp rfl) (Nat.zero_le _) hr
  | t8w4 hp => exact .of_sample (.inl rfl) (hoe hp) (hout hp) (hi hp rfl) hr
  | t8w5Last hp => exact .of_sample (.inr (.inr rfl)) (hoe hp) (hout hp) (hi hp rfl) hr
  | t9 hp hc => exact .of_wait (.inl rfl) (hoe hp) (hout hp) (hi hp rfl) hc hr
  | t11 hp => exact .of_sample (.inr (.inl rfl)) (hoe hp) (hout hp) (hi hp rfl) hr
  | t13 hp hsum => exact .of_done rfl (hoe hp) (hout hp) rfl (fun _ => (sumOk_iff _).2 hsum) nofun hr
  | t14 hp hsum hop =>
    exact .of_extractor (.inl rfl) (hoe hp) (hout hp) (hi hp rfl) ((sumOk_iff _).2 hsum) hop nofun hr
  | t16 hp =>
    obtain ⟨hsum, hop⟩ := hs.summed (.inl hp)
    exact .of_extractor (.inr rfl) (hoe hp) (hout hp) (hi hp rfl) hsum hop (fun _ => ⟨rfl, rfl⟩) hr
  | t17 hp ht hh =>
    obtain ⟨hsum, -⟩ := hs.summed (.inr hp)
    obtain ⟨htemp, hhum⟩ := hs.extracted hp
    obtain ⟨htmin, htmax⟩ := ht
    exact .of_done rfl (hoe hp) (hout hp) rfl nofun
      (fun _ => ⟨hsum, htemp, hhum, inRange_iff.2 ⟨htmin, htmax, hh⟩⟩) hr
  | t19 hp | t20 hp => exact .of_idle rfl (hoe hp) (hout hp)

/-- Settles O52: a reset leads into the idle invariant, and otherwise the step is a row, which keeps it. -/
theorem everyStepKeepsTheInvariant : Obligations.EveryStepKeepsTheInvariant := by
  intro s t hs hstep
  obtain ⟨u, hu, hrow⟩ := step_of_inv hs
  obtain rfl : u = t := Host.Outcome.next.inj (hu.symm.trans hstep)
  obtain rfl | hrow := hrow
  · exact .of_idle rfl rfl rfl
  · exact hrow.keeps_inv hs.takeInputs (takeInputs_rsp s)

end Sys2Proof.Machine

/-! What each instruction writes and leaves alone (spec/10_state.md sections 1 to 6; spec/20_memory.md sections 3 to 5): the
frames (O47 to O50) and the one line operation of a step (O55). -/

namespace Sys2Proof.Machine

/-! ### What each operation writes, every other field as before -/

theorem execInit_frame {v : Variant} {s t : State} (h : execInit v s = .next t) :
    ∃ tr w i st d p, t = { s with trace := tr, variant := w, inited := i, status := st, due := d, phase := p } := by
  obtain ⟨-, rfl⟩ | ⟨-, rfl⟩ := accepted_cases h
  · exact ⟨_, _, _, _, _, _, rfl⟩
  · split <;> exact ⟨_, _, _, _, _, _, rfl⟩

theorem startRead_frame {o : ReadOp} {s t : State} (h : startRead o s = .next t) :
    ∃ tr op st p, t = { s with trace := tr, op := op, status := st, phase := p } := by
  obtain ⟨-, rfl⟩ | ⟨-, rfl⟩ := accepted_cases h
  · exact ⟨_, _, _, _, rfl⟩
  · split <;> exact ⟨_, _, _, _, rfl⟩

theorem execRsvd_frame {v : Bool} {s t : State} (h : execRsvd v s = .next t) :
    ∃ tr st p, t = { s with trace := tr, status := st, phase := p } := by
  obtain ⟨-, rfl⟩ | ⟨-, rfl⟩ := accepted_cases h <;> exact ⟨_, _, _, rfl⟩

/-- START writes the line registers and ELAPSED, and performs one line operation (rows T1 to T6). -/
theorem exec_start_frame {s t : State} (h : exec .start s = .next t) :
    ∃ o oe out e p, t = { s with
      trace := o :: s.trace, lineOE := oe, lineOut := out, elapsed := e, phase := p } := by
  simp only [exec, execStart] at h
  split at h
  case h_1 | h_3 =>
    obtain ⟨-, h⟩ := wr_eq_next.1 h
    cases h
    exact ⟨_, _, _, _, _, rfl⟩
  all_goals
    cases h
    exact ⟨_, _, _, _, _, rfl⟩

/-- The exit of a wait writes the indices in W3 and W5 only (R112). -/
theorem waitExit_frame (k : WaitId) (s : State) :
    ∃ b c e p, waitExit k s = { s with byteIdx := b, bitIdx := c, elapsed := e, phase := p } ∧
      (k ≠ .w3 → k ≠ .w5 → b = s.byteIdx ∧ c = s.bitIdx) := by
  cases k with
  | w1 | w2 | w4 => exact ⟨_, _, _, _, rfl, fun _ _ => ⟨rfl, rfl⟩⟩
  | w3 => exact ⟨_, _, _, _, rfl, fun h => absurd rfl h⟩
  | w5 => exact ⟨_, _, _, _, advance_frame s, fun _ h => absurd rfl h⟩

/-- A micro-step of a wait is one line operation (rows T7 to T10). -/
theorem waitStep_frame {k : WaitId} {s t : State} (h : waitStep k s = .next t) :
    ∃ o ins n b c e st p, t = { s with
        trace := o :: s.trace, lineIn := ins, reads := n, byteIdx := b, bitIdx := c, elapsed := e, status := st
        phase := p } ∧
      (k ≠ .w3 → k ≠ .w5 → b = s.byteIdx ∧ c = s.bitIdx) := by
  obtain ⟨-, h⟩ | ⟨-, h⟩ := waitStep_cases h
  · obtain ⟨-, rfl⟩ | ⟨-, rfl⟩ := waitTick_cases h <;> exact ⟨_, _, _, _, _, _, _, _, rfl, fun _ _ => ⟨rfl, rfl⟩⟩
  · have henter : enterWait k s = { s with elapsed := (enterWait k s).elapsed, phase := (enterWait k s).phase } := by
      unfold enterWait
      split <;> rfl
    rw [henter] at h
    obtain ⟨-, ⟨-, rfl⟩ | ⟨-, rfl⟩⟩ := waitRead_cases h
    · exact ⟨_, _, _, _, _, _, _, _, rfl, fun _ _ => ⟨rfl, rfl⟩⟩
    · obtain ⟨b, c, e, p, hexit, hidx⟩ := waitExit_frame k
        (State.afterRead { s with elapsed := (enterWait k s).elapsed, phase := (enterWait k s).phase })
      exact ⟨_, _, _, _, _, _, _, _, hexit, hidx⟩

/-- A micro-step of a bit is one line operation, and writes one bit of RAW at most (rows T7 to T12). -/
theorem exec_rdbit_frame {s t : State} (h : exec .rdbit s = .next t) :
    ∃ o ins n b c e st p v r, t = { s with
        trace := o :: s.trace, lineIn := ins, reads := n, byteIdx := b, bitIdx := c, elapsed := e, status := st
        phase := p, sbit := v, raw := r } ∧
      (r = s.raw ∨ ∃ v, r = s.raw.putBit s.byteIdx s.bitIdx v) := by
  simp only [exec, execRdbit, bitStep] at h
  split at h
  case h_1 =>
    cases h
    exact ⟨_, _, _, _, _, _, _, _, _, _, rfl, .inl rfl⟩
  case h_2 =>
    obtain ⟨-, h⟩ := rd_eq_next.1 h
    cases h
    exact ⟨_, _, _, _, _, _, _, _, _, _, rfl, .inr ⟨_, rfl⟩⟩
  all_goals
    obtain ⟨_, _, _, _, _, _, _, _, rfl, -⟩ := waitStep_frame h
    exact ⟨_, _, _, _, _, _, _, _, _, _, rfl, .inl rfl⟩

/-- RESPONSE is a micro-step of one of its three waits (R115). -/
theorem exec_response_cases {s t : State} (h : exec .response s = .next t) : ∃ k, waitStep k s = .next t := by
  simp only [exec, execResponse] at h
  split at h <;> exact ⟨_, h⟩

/-- RDFRAME is RDBIT inside a bit, and from elsewhere the first read of the frame (R125; log 9). -/
theorem exec_rdframe_frame {s t : State} (h : exec .rdframe s = .next t) :
    ∃ o ins n b c e st p v r, t = { s with
        trace := o :: s.trace, lineIn := ins, reads := n, byteIdx := b, bitIdx := c, elapsed := e, status := st
        phase := p, sbit := v, raw := r } ∧
      (r = s.raw ∨ ∃ v, r = s.raw.putBit s.byteIdx s.bitIdx v) := by
  by_cases hin : inBit s.phase = true
  · exact exec_rdbit_frame (exec_rdframe_inBit hin ▸ h)
  · have hout : s.phase ∉ [Phase.rd .w4, .tk .w4, .bDly, .bSmp, .rd .w5, .tk .w5] := by
      intro hp
      simp only [List.mem_cons, List.not_mem_nil, or_false] at hp
      obtain hp | hp | hp | hp | hp | hp := hp <;> rw [hp] at hin <;> exact hin rfl
    obtain ⟨-, -, -, -, -, -, -, -, hfirst⟩ := microOperationsStartAtTheirFirstMicroStep s
    rw [(hfirst hout).2, exec, execW4] at h
    obtain ⟨_, _, _, _, _, _, _, _, rfl, -⟩ := waitStep_frame h
    exact ⟨_, _, _, _, _, _, _, _, _, _, rfl, .inl rfl⟩

theorem checkFrame_frame {s t : State} (h : checkFrame s = .next t) :
    ∃ st d p, t = { s with status := st, due := d, phase := p } := by
  obtain ⟨-, -, rfl⟩ | ⟨-, -, rfl⟩ | ⟨-, rfl⟩ := checkFrame_cases h <;> exact ⟨_, _, _, rfl⟩

theorem exec_rangeCheck_frame {s t : State} (h : exec .rangeCheck s = .next t) :
    ∃ st d p, t = { s with status := st, due := d, phase := p } := by
  obtain rfl | rfl := exec_rangeCheck_cases h <;> exact ⟨_, _, _, rfl⟩

/-! ### The frame of every instruction (10_state.md sections 1 to 6) -/

/-- `t` differs from `s` only in what the rules let instruction `i` write. -/
structure Framed (i : Instr) (s t : State) : Prop where
  params : t.params = s.params
  cap : t.cap = s.cap
  host : t.host = s.host
  rsp : t.rsp = s.rsp
  configuration : (∀ v, i ≠ .init v) → t.variant = s.variant ∧ t.inited = s.inited
  line : i ≠ .start → t.lineOE = s.lineOE ∧ t.lineOut = s.lineOut
  answers : i ∉ [Instr.w1, .w2, .w3, .w4, .w5, .response, .rdbit, .rdframe] → (∀ k, i ≠ .wait k) →
    t.lineIn = s.lineIn ∧ t.reads = s.reads
  trace : i ∈ [Instr.checksum, .extractTemperature, .extractHumidity, .rangeCheck] ∨ i.format = .frame40 →
    t.trace = s.trace
  sbit : i ∉ [Instr.rdbit, .rdframe] → t.sbit = s.sbit
  raw : i ∉ [Instr.rdbit, .rdframe] → i.format ≠ .frame40 → t.raw = s.raw
  rawBit : i ∈ [Instr.rdbit, .rdframe] → ∀ (j : Fin 5) (n : Nat), n < 8 → (j = s.byteIdx ∧ n = s.bitIdx.val) ∨
    (t.raw.get j).getLsbD n = (s.raw.get j).getLsbD n
  temp : i ≠ .extractTemperature → (∀ h x u y c, i ≠ .frame40A h x u y c) → (∀ h g m c, i ≠ .frame40B h g m c) →
    t.temp = s.temp
  hum : i ≠ .extractHumidity → (∀ h x u y c, i ≠ .frame40A h x u y c) → (∀ h g m c, i ≠ .frame40B h g m c) →
    t.hum = s.hum
  indices : i ∉ [Instr.w3, .wait .w3, .w5, .wait .w5, .response, .rdbit, .rdframe] →
    t.byteIdx = s.byteIdx ∧ t.bitIdx = s.bitIdx
  elapsed : i ∉ [Instr.start, .w1, .w2, .w3, .w4, .w5, .response, .rdbit, .rdframe] → (∀ k, i ≠ .wait k) →
    t.elapsed = s.elapsed
  op : (∀ v, i ≠ .readSample v ∧ i ≠ .readRaw v) → t.op = s.op
  status : i ∈ [Instr.start, .extractTemperature, .extractHumidity] ∨
    (∃ h x u y c, i = .frame40A h x u y c) ∨ (∃ h g m c, i = .frame40B h g m c) → t.status = s.status

/-- RAW after a bit operation: at most the bit at the indices changed (R123). -/
theorem rawBit_unchanged {s : State} {r : Raw} (h : r = s.raw ∨ ∃ v, r = s.raw.putBit s.byteIdx s.bitIdx v)
    (j : Fin 5) {n : Nat} (hn : n < 8) :
    (j = s.byteIdx ∧ n = s.bitIdx.val) ∨ (r.get j).getLsbD n = (s.raw.get j).getLsbD n := by
  obtain rfl | ⟨v, rfl⟩ := h
  · exact .inr rfl
  · rw [Raw.getLsbD_putBit _ _ _ _ _ _ hn]
    split
    · exact .inl ‹_›
    · exact .inr rfl

/-- Every instruction keeps to its frame. -/
theorem exec_framed {i : Instr} {s t : State} (h : exec i s = .next t) : Framed i s t := by
  cases i with
  | init v =>
    obtain ⟨_, _, _, _, _, _, rfl⟩ := execInit_frame h
    constructor <;> simp [Instr.format]
  | readSample v | readRaw v =>
    obtain ⟨_, _, _, _, rfl⟩ := startRead_frame h
    constructor <;> simp [Instr.format]
  | rsvd v =>
    obtain ⟨_, _, _, rfl⟩ := execRsvd_frame (v := v) h
    constructor <;> simp [Instr.format]
  | start =>
    obtain ⟨_, _, _, _, _, rfl⟩ := exec_start_frame h
    constructor <;> simp [Instr.format]
  | w1 | w2 | w3 | w4 | w5 | wait k =>
    obtain ⟨_, _, _, _, _, _, _, _, rfl, hidx⟩ := waitStep_frame h
    constructor <;> simp_all [Instr.format]
  | response =>
    obtain ⟨k, h⟩ := exec_response_cases h
    obtain ⟨_, _, _, _, _, _, _, _, rfl, -⟩ := waitStep_frame h
    constructor <;> simp [Instr.format]
  | rdbit =>
    obtain ⟨_, _, _, _, _, _, _, _, _, _, rfl, hraw⟩ := exec_rdbit_frame h
    have hbit := rawBit_unchanged hraw
    constructor <;> simp_all [Instr.format]
  | rdframe =>
    obtain ⟨_, _, _, _, _, _, _, _, _, _, rfl, hraw⟩ := exec_rdframe_frame h
    have hbit := rawBit_unchanged hraw
    constructor <;> simp_all [Instr.format]
  | checksum | frame40 a b d e c =>
    obtain ⟨_, _, _, rfl⟩ := checkFrame_frame h
    constructor <;> simp [Instr.format]
  | rangeCheck =>
    obtain ⟨_, _, _, rfl⟩ := exec_rangeCheck_frame h
    constructor <;> simp [Instr.format]
  | extractTemperature | extractHumidity | frame40A h x t y c =>
    cases h
    constructor <;> simp [Instr.format]
  | frame40B h sgn m c =>
    cases h
    constructor
    case temp | hum => exact fun _ _ hB => absurd rfl (hB _ _ _ _)
    all_goals simp [Instr.format]

/-- Settles O47: part of the frame of every instruction. -/
theorem onlyInitWritesTheConfiguration : Obligations.OnlyInitWritesTheConfiguration := fun _ _ _ h =>
  let f := exec_framed h
  ⟨f.params, f.cap, f.host, f.rsp, f.configuration⟩

/-- Settles O48: part of the frame of every instruction. -/
theorem onlyStartDrivesTheLine : Obligations.OnlyStartDrivesTheLine := fun _ _ _ h =>
  let f := exec_framed h
  ⟨f.line, f.answers, f.trace⟩

/-- Settles O49: part of the frame of every instruction. -/
theorem dataRegistersFrame : Obligations.DataRegistersFrame := fun _ _ _ h =>
  let f := exec_framed h
  ⟨f.sbit, f.raw, f.rawBit, f.temp, f.hum⟩

/-- Settles O50: part of the frame of every instruction. -/
theorem sequencingRegistersFrame : Obligations.SequencingRegistersFrame := fun _ _ _ h =>
  let f := exec_framed h
  ⟨f.indices, f.elapsed, f.op, f.status⟩

/-! ### One line operation to a step (20_memory.md sections 3, 4) -/

/-- From `s` to `t` there is at most one line operation. -/
def OneLineOp (s t : State) : Prop :=
  t.trace = s.trace ∨ ∃ o, t.trace = o :: s.trace

/-- Without a command PHASE selects one line operation at most, row by row of R112. -/
theorem oneLineOp_select {s t : State} (h : perform (select s.phase) s = .next t) : OneLineOp s t := by
  cases hp : s.phase with
  | idle | done | fail =>
    rw [hp] at h
    cases h
    exact .inl rfl
  | stDir | stLow | stHold | stHigh | stRelHold | stRelease =>
    rw [hp] at h
    obtain ⟨o, _, _, _, _, rfl⟩ := exec_start_frame h
    exact .inr ⟨o, rfl⟩
  | rd k =>
    rw [perform_select_wait (.inl hp)] at h
    obtain ⟨o, _, _, _, _, _, _, _, rfl, -⟩ := waitStep_frame h
    exact .inr ⟨o, rfl⟩
  | tk k =>
    rw [perform_select_wait (.inr hp)] at h
    obtain ⟨o, _, _, _, _, _, _, _, rfl, -⟩ := waitStep_frame h
    exact .inr ⟨o, rfl⟩
  | bDly | bSmp =>
    rw [hp] at h
    obtain ⟨o, _, _, _, _, _, _, _, _, _, rfl, -⟩ := exec_rdbit_frame h
    exact .inr ⟨o, rfl⟩
  | check =>
    rw [hp] at h
    exact .inl ((exec_framed (i := .checksum) h).trace (by simp))
  | extract =>
    rw [hp] at h
    cases h
    exact .inl rfl
  | range =>
    rw [hp] at h
    exact .inl ((exec_framed (i := .rangeCheck) h).trace (by simp))

/-- An accepted command starts with an empty trace (R14). -/
theorem trace_of_accepted {w : BitVec 3} {s t : State} (hidle : s.phase = .idle) (h : exec (decodeCmd w) s = .next t) :
    t.trace = [] := by
  unfold decodeCmd at h
  split at h <;> simp only [exec, execInit, execReadSample, execReadRaw, execRsvd, startRead, accepted_idle hidle] at h
  case h_1 | h_2 | h_3 =>
    cases h
    split <;> rfl
  case h_4 =>
    cases h
    rfl

/-- Settles O55: a reset keeps the trace, acceptance empties it, and what PHASE selects adds one operation at most. -/
theorem atMostOneLineOperationPerStep : Obligations.AtMostOneLineOperationPerStep := by
  intro s t h
  rw [← or_assoc]
  by_cases hreset : ∃ rest, s.host = .reset :: rest
  · obtain ⟨rest, hh⟩ := hreset
    rw [step_reset hh] at h
    cases h
    exact .inl (.inl rfl)
  · rw [step_of_no_reset (not_exists.1 hreset)] at h
    cases hw : acceptedWord s with
    | none =>
      rw [hw, selectFor, ← takeInputs_phase] at h
      exact .inl (by simpa [OneLineOp] using oneLineOp_select h)
    | some w =>
      have hidle := idle_of_acceptedWord (s := s) (by simp [hw])
      rw [hw] at h
      exact .inr ⟨trace_of_accepted (by rwa [takeInputs_phase]) h, hidle, nofun⟩

end Sys2Proof.Machine

/-! Whole operations and whole transactions (spec/40_decoder.md sections 5, 6, 8; spec/42_pipeline.md): RESPONSE (O27), a dead
line (O28), a bit (O30), the bits of a byte (O33), and a READ command from acceptance to response (O60). -/

namespace Sys2Proof.Machine

/-! ### RESPONSE and RDBIT as wholes (R115, R123) -/

/-- Three waits within their ceilings lead from W1 to W4 of the first bit (R115). -/
theorem runs_response {s : State} {n1 n2 n3 : Nat} {rest : List Level} (hp : s.phase = .rd .w1) (hh : s.host = [])
    (ho : s.lineOE = false) (he : s.elapsed = 0) (h1 : n1 * s.params.tickUs ≤ s.params.ceilAckUs)
    (h2 : n2 * s.params.tickUs ≤ s.params.ceilRespUs) (h3 : n3 * s.params.tickUs ≤ s.params.ceilRespUs)
    (hl : s.lineIn = responseAnswers n1 n2 n3 ++ rest) :
    runs (2 * n1 + 1 + (2 * n2 + 1) + (2 * n3 + 1)) s = .next { s with
      rsp := none, lineIn := rest, reads := s.reads + (n1 + 1 + (n2 + 1) + (n3 + 1))
      byteIdx := 0, bitIdx := 7, elapsed := 0, phase := .rd .w4
      trace := .rd false :: (polls true s.params.tickUs n3 ++ .rd true :: (polls false s.params.tickUs n2 ++
        .rd false :: (polls true s.params.tickUs n1 ++ s.trace))) } := by
  have hin : s.lineIn = List.replicate n1 true ++
      false :: (List.replicate n2 false ++ true :: (List.replicate n3 true ++ false :: rest)) := by
    simpa [responseAnswers] using hl
  have hw1 := runs_wait (k := .w1) n1 hp hh ho (by rwa [he, Nat.zero_add]) hin
  refine (runs_trans (runs_trans hw1 (runs_wait (k := .w2) n2 rfl hh ho ((Nat.zero_add _).trans_le h2) rfl))
    (runs_wait (k := .w3) n3 rfl hh ho ((Nat.zero_add _).trans_le h3) rfl)).trans ?_
  simp [waitExit, waitLevel, Nat.add_assoc]

/-- Settles O27: the three waits one after the other. -/
theorem responseIsThreeWaits : Obligations.ResponseIsThreeWaits := fun _ _ _ _ _ => runs_response

/-- Settles O30: the marker, the delay, the sample and the fall, by the run of one bit. -/
theorem oneSampleDecidesTheBit : Obligations.OneSampleDecidesTheBit := fun _ _ _ _ _ => runs_bit

/-! ### From the command to the first wait (rows T0c, T1 to T6) -/

/-- The word of a READ command starts its operation, whatever bit `v` is (R82). -/
theorem exec_readWord (o : ReadOp) (v : Bool) (s : State) : exec (decodeCmd (cmdWord v o.code)) s = startRead o s := by
  cases o with
  | readSample => rw [ReadOp.code, decodeCmd_cmdWord_readSample, exec_readSample]
  | readRaw => rw [ReadOp.code, decodeCmd_cmdWord_readRaw, exec_readRaw]

theorem step_readCommand {s : State} {o : ReadOp} {v : Bool} {c : BitVec 5} (hp : s.phase = .idle)
    (hi : s.inited = true) (hh : s.host = [.command (cmdWord v o.code) c]) :
    step s = .next { s with rsp := none, host := [], cap := c, trace := [], op := o, phase := .stDir } := by
  rw [step_accept hp hh, exec_readWord]
  exact startRead_inited (s := { s with rsp := none, host := [], cap := c }) hp hi o

/-- `t` is the engine at the entry of W1, in the transaction that a READ command started in `s`. -/
structure EntersResponse (s : State) (o : ReadOp) (t : State) : Prop where
  phase : t.phase = .rd .w1
  host : t.host = []
  lineOE : t.lineOE = false
  lineOut : t.lineOut = true
  elapsed : t.elapsed = 0
  params : t.params = s.params
  variant : t.variant = s.variant
  op : t.op = o
  lineIn : t.lineIn = s.lineIn
  noReads : readCount t.trace = 0

/-- A READ command on an initialised idle engine leads through START into W1 (R113, R170). -/
theorem runs_into_response {s : State} {o : ReadOp} {v : Bool} {c : BitVec 5} (hp : s.phase = .idle)
    (hi : s.inited = true) (hh : s.host = [.command (cmdWord v o.code) c]) :
    ∃ t, runs 7 s = .next t ∧ EntersResponse s o t :=
  ⟨_, (runs_succ_of_next (step_readCommand hp hi hh)).trans (runs_start rfl rfl),
    rfl, rfl, rfl, rfl, rfl, rfl, rfl, rfl, rfl, rfl⟩

/-! ### A line that never changes (R131) -/

theorem readCount_polls (l : Level) (tick n : Nat) (t : List LineOp) :
    readCount (polls l tick n ++ t) = n + readCount t := by
  induction n generalizing t with
  | zero => simp [polls]
  | succ n ih => rw [polls_succ, ih]; simp [readCount]; omega

/-- A wait entered with ELAPSED 0 that is answered its own level only ends in a response of `Timeout` (R116, R205). -/
theorem runs_dead_wait {k : WaitId} {s : State} {rest : List Level} (hp : s.phase = .rd k) (hh : s.host = [])
    (ho : s.lineOE = false) (he : s.elapsed = 0) (htick : 1 ≤ s.params.tickUs)
    (hl : s.lineIn = List.replicate (maxReads s.params k) (waitLevel k) ++ rest) :
    ∃ t, runs (2 * maxReads s.params k + 1) s = .next t ∧ t.phase = .idle ∧ t.rsp = some ⟨.timeout, .nothing⟩ ∧
      t.lineOE = false ∧ t.lineOut = s.lineOut ∧ t.lineIn = rest ∧
      readCount t.trace = maxReads s.params k + readCount s.trace := by
  obtain ⟨-, htimeout⟩ := pollingWaitReturnsOrTimesOut.2 k s rest hp hh ho he htick
  exact ⟨_, runs_trans (htimeout hl) (runs_succ_of_next (step_complete hh (.inr rfl))), rfl, rfl, ho, rfl, rfl,
    readCount_polls ..⟩

/-- A low line ends W1 at its first read (row T8). -/
theorem step_w1_low {s : State} {rest : List Level} (hp : s.phase = .rd .w1) (hh : s.host = []) (ho : s.lineOE = false)
    (hl : s.lineIn = false :: rest) :
    ∃ t, step s = .next t ∧ t.phase = .rd .w2 ∧ t.host = [] ∧ t.lineOE = false ∧ t.lineOut = s.lineOut ∧
      t.elapsed = 0 ∧ t.params = s.params ∧ t.lineIn = rest ∧ readCount t.trace = readCount s.trace + 1 :=
  ⟨_, step_change hp hh ho hl, rfl, hh, ho, rfl, rfl, rfl, rfl, by simp [waitExit, waitLevel, readCount]⟩

/-- Settles O28: START, then W1 times out on a high line; on a low one W1 ends at its first read and W2 times out. -/
theorem deadLineYieldsTimeout : Obligations.DeadLineYieldsTimeout := by
  intro s o v c rest hp hi hh htick
  obtain ⟨u, hstart, hu⟩ := runs_into_response hp hi hh
  rw [← hu.params] at htick
  rw [← hu.params, ← hu.lineIn]
  refine ⟨fun hl => ?_, fun hl => ?_⟩
  · obtain ⟨t, hrun, hidle, hrsp, hoe, hout, hin, hcount⟩ :=
      runs_dead_wait hu.phase hu.host hu.lineOE hu.elapsed htick hl
    exact ⟨_, t, runs_trans hstart hrun, hidle, hrsp, hoe, hout.trans hu.lineOut, hin, by rw [hcount, hu.noReads, Nat.add_zero]⟩
  · rw [Nat.add_comm, List.replicate_succ] at hl
    obtain ⟨x, hfirst, hp2, hh2, ho2, hout2, he2, hparams, hin2, hcount2⟩ :=
      step_w1_low hu.phase hu.host hu.lineOE hl
    rw [← hparams] at htick hin2
    obtain ⟨t, hrun, hidle, hrsp, hoe, hout, hin, hcount⟩ := runs_dead_wait hp2 hh2 ho2 he2 htick hin2
    refine ⟨_, t, runs_trans hstart ((runs_succ_of_next hfirst).trans hrun), hidle, hrsp, hoe,
      hout.trans (hout2.trans hu.lineOut), hin, ?_⟩
    rw [hcount, hcount2, hu.noReads, hparams, Nat.add_comm]

/-! ### The bits of one byte (30_encoding.md section 4) -/

/-- Settles O33: bit by bit, the one at position `7 - k` is `b k` on both sides. -/
theorem storingBitsIsShiftingThemIn : Obligations.StoringBitsIsShiftingThemIn := by
  intro x b
  refine BitVec.eq_of_getLsbD_eq fun j hj => ?_
  simp only [List.finRange_succ, List.finRange_zero, List.map_cons, List.map_nil, List.foldl_cons, List.foldl_nil]
  simp only [getLsbD_withBit _ _ _ _ hj]
  interval_cases j <;> simp

/-! ### From the frame to the response (R126, R159, R173, R207; rows T13 to T20) -/

/-- From `s` the engine answers `r` without touching the line. -/
def Answers (s : State) (r : Response) : Prop :=
  ∃ n t, runs n s = .next t ∧ t.phase = .idle ∧ t.lineOE = s.lineOE ∧ t.lineOut = s.lineOut ∧ t.lineIn = s.lineIn ∧
    t.rsp = some r

theorem Answers.of_step {s u : State} {r : Response} (hstep : step s = .next u) (hoe : u.lineOE = s.lineOE)
    (hout : u.lineOut = s.lineOut) (hin : u.lineIn = s.lineIn) (hu : Answers u r) : Answers s r := by
  obtain ⟨n, t, hrun, hidle, hoe', hout', hin', hrsp⟩ := hu
  exact ⟨n + 1, t, (runs_succ_of_next hstep).trans hrun, hidle, hoe'.trans hoe, hout'.trans hout, hin'.trans hin, hrsp⟩

theorem answers_of_done {s : State} (hp : s.phase = .done) (hh : s.host = []) : Answers s ⟨s.status, dueData s⟩ :=
  ⟨1, _, runs_succ_of_next (step_complete hh (.inl hp)), rfl, rfl, rfl, rfl, by simp [hp, dueData]⟩

theorem answers_of_fail {s : State} (hp : s.phase = .fail) (hh : s.host = []) : Answers s ⟨s.status, .nothing⟩ :=
  ⟨1, _, runs_succ_of_next (step_complete hh (.inr hp)), rfl, rfl, rfl, rfl, by simp [hp]⟩

/-- The range test on what the extractor wrote (R159; rows T17, T18). -/
theorem answers_of_range {s : State} (hp : s.phase = .range) (hh : s.host = [])
    (htemp : s.temp = temperature s.variant s.raw.b2 s.raw.b3) (hhum : s.hum = humidity s.variant s.raw.b0 s.raw.b1) :
    Answers s (if inRange s.params s.variant (tX10 s.variant s.raw.b2 s.raw.b3) (hX10 s.variant s.raw.b0 s.raw.b1) then
      ⟨.ok, .pair s.temp s.hum⟩ else ⟨.fail, .nothing⟩) := by
  have hstep : step s = exec .rangeCheck { s with rsp := none } := step_quiet hh (by rw [hp]; rfl)
  rw [exec_rangeCheck_extracted (s := { s with rsp := none }) htemp hhum] at hstep
  split
  · rw [if_pos ‹_›] at hstep
    exact .of_step hstep rfl rfl rfl (answers_of_done rfl hh)
  · rw [if_neg ‹_›] at hstep
    exact .of_step hstep rfl rfl rfl (answers_of_fail rfl hh)

/-- The two extract operations, then the range test (R150, R151; row T16). -/
theorem answers_of_extract {s : State} (hp : s.phase = .extract) (hh : s.host = []) : Answers s
    (if inRange s.params s.variant (tX10 s.variant s.raw.b2 s.raw.b3) (hX10 s.variant s.raw.b0 s.raw.b1) then
      ⟨.ok, .pair (temperature s.variant s.raw.b2 s.raw.b3) (humidity s.variant s.raw.b0 s.raw.b1)⟩
    else ⟨.fail, .nothing⟩) := by
  have hstep : step s = extractFrame s.variant { s with rsp := none } := by
    rw [step_of_not_accepted (by simp [hh]) (by simp [hh]), takeInputs_quiet hh, hp]
    rfl
  exact .of_step hstep rfl rfl rfl (answers_of_range rfl hh rfl rfl)

theorem transactionResponse_bad {r : Raw} (hsum : ¬ sumOk r = true) (p : Params) (v : Variant) (o : ReadOp) :
    transactionResponse p v o r = ⟨.checksum, .nothing⟩ := if_neg hsum

theorem transactionResponse_readRaw {r : Raw} (hsum : sumOk r = true) (p : Params) (v : Variant) :
    transactionResponse p v .readRaw r = ⟨.ok, .raw r.frame⟩ := if_pos hsum

theorem transactionResponse_readSample {r : Raw} (hsum : sumOk r = true) (p : Params) (v : Variant) :
    transactionResponse p v .readSample r = if inRange p v (tX10 v r.b2 r.b3) (hX10 v r.b0 r.b1) then
      ⟨.ok, .pair (temperature v r.b2 r.b3) (humidity v r.b0 r.b1)⟩ else ⟨.fail, .nothing⟩ := if_pos hsum

/-- From the frame check on the engine answers what the frame in RAW earns. -/
theorem answers_of_check {s : State} (hp : s.phase = .check) (hh : s.host = []) :
    Answers s (transactionResponse s.params s.variant s.op s.raw) := by
  have hstep : step s = checkFrame { s with rsp := none } := step_quiet (i := .checksum) hh (by rw [hp]; rfl)
  by_cases hsum : sumOk s.raw = true
  · cases hop : s.op with
    | readRaw =>
      rw [transactionResponse_readRaw hsum]
      exact .of_step (hstep.trans (checkFrame_readRaw hsum hop)) rfl rfl rfl (answers_of_done rfl hh)
    | readSample =>
      rw [transactionResponse_readSample hsum]
      exact .of_step (hstep.trans (checkFrame_readSample hsum hop)) rfl rfl rfl (answers_of_extract rfl hh)
  · rw [transactionResponse_bad hsum]
    exact .of_step (hstep.trans (checkFrame_bad hsum)) rfl rfl rfl (answers_of_fail rfl hh)

/-- A run that enters W4 of the first bit goes on through the frame on the wire to the response that frame earns. -/
theorem runs_answers_frame {s t : State} {k : Nat} {f : BitVec 40} {m w : Nat → Nat} {rest : List Level}
    (hrun : runs k s = .next t) (hp : t.phase = .rd .w4) (hh : t.host = []) (ho : t.lineOE = false)
    (he : t.elapsed = 0) (hbyte : t.byteIdx = 0) (hbit : t.bitIdx = 7)
    (hbits : ∀ j < 40, m j * t.params.tickUs ≤ t.params.ceilBitLowUs ∧ w j * t.params.tickUs ≤ t.params.ceilBitHighUs)
    (hl : t.lineIn = frameAnswers f m w ++ rest) :
    ∃ n u, runs n s = .next u ∧ u.phase = .idle ∧ u.lineOE = false ∧ u.lineOut = t.lineOut ∧ u.lineIn = rest ∧
      u.rsp = some (transactionResponse t.params t.variant t.op (Raw.ofFrame f)) := by
  obtain ⟨i, x, hframe, hxp, hraw, hin, hparams, hvariant, -, hop, -, hoe, hout, -, -, hxh, -⟩ :=
    fortyBitsAssembleTheFrame t f m w rest hp hh ho he hbyte hbit hbits hl
  obtain ⟨j, u, heval, hidle, hoe', hout', hin', hrsp⟩ := answers_of_check hxp hxh
  rw [hparams, hvariant, hop, hraw] at hrsp
  exact ⟨_, u, runs_trans hrun (runs_trans hframe heval), hidle, hoe'.trans hoe, hout'.trans hout, hin'.trans hin, hrsp⟩

/-- Settles O60: START, RESPONSE, forty bits, and the evaluation of the frame. -/
theorem transactionDeliversTheFrameOnTheWire : Obligations.TransactionDeliversTheFrameOnTheWire := by
  intro s o v c f n1 n2 n3 m w rest hp hi hh h1 h2 h3 hbits hl
  obtain ⟨u, hstart, hu⟩ := runs_into_response hp hi hh
  rw [← hu.params] at h1 h2 h3 hbits ⊢
  have hresponse := runs_response hu.phase hu.host hu.lineOE hu.elapsed h1 h2 h3 (hu.lineIn.trans hl)
  obtain ⟨n, t, hrun, hidle, hoe, hout, hin, hrsp⟩ :=
    runs_answers_frame (runs_trans hstart hresponse) rfl hu.host hu.lineOE rfl rfl rfl hbits rfl
  rw [← hu.variant, ← hu.op]
  exact ⟨n, t, hrun, hidle, hoe, hout.trans hu.lineOut, hin, hrsp⟩

end Sys2Proof.Machine

/-! The extracted values as binary32 numbers (spec/41_extractor.md R153, R157, R158): the round trip of Variant B (O41), the
nearest value (O43), tenths against their images (O44), and what the extractor can produce (O46). -/

namespace Sys2Proof.Machine

/-! ### Rounding to the nearest, ties to even -/

/-- Half-way between two integers the even one is taken. -/
theorem roundHalfEven_even_of_tie {a b : Nat} (hb : 0 < b)
    (h : 2 * (b * roundHalfEven a b) = 2 * a + b ∨ 2 * a = 2 * (b * roundHalfEven a b) + b) :
    roundHalfEven a b % 2 = 0 := by
  have hd := Nat.div_add_mod a b
  have hm := Nat.mod_lt a hb
  unfold roundHalfEven at h ⊢
  split at h
  · rw [if_pos ‹_›]
    omega
  · rw [if_neg ‹_›]
    rw [Nat.mul_add, Nat.mul_one] at h
    omega

/-- No integer is nearer to `a / b` than the rounded one, and where another is as near the rounded one is even. -/
theorem roundHalfEven_nearest (a j : Nat) {b : Nat} (hb : 0 < b) :
    |(b * roundHalfEven a b : Int) - a| ≤ |(b * j : Int) - a| ∧
    (|(b * roundHalfEven a b : Int) - a| = |(b * j : Int) - a| → j = roundHalfEven a b ∨ roundHalfEven a b % 2 = 0) := by
  obtain ⟨r1, r2⟩ := roundHalfEven_bounds a hb
  have htie := roundHalfEven_even_of_tie (a := a) hb
  generalize roundHalfEven a b = r at *
  have hfar : j = r ∨ b * j + b ≤ b * r ∨ b * r + b ≤ b * j := by
    obtain hlt | rfl | hgt := Nat.lt_trichotomy j r
    · exact .inr (.inl (by simpa [Nat.mul_add] using Nat.mul_le_mul_left b hlt))
    · exact .inl rfl
    · exact .inr (.inr (by simpa [Nat.mul_add] using Nat.mul_le_mul_left b hgt))
  obtain rfl | hfar := hfar
  · exact ⟨le_rfl, fun _ => .inl rfl⟩
  · rw [← Nat.cast_mul, ← Nat.cast_mul]
    generalize b * j = x at *
    generalize b * r = y at *
    obtain ⟨hy, hy0⟩ | ⟨hy, hy0⟩ := abs_cases ((y : Int) - a) <;>
      obtain ⟨hx, hx0⟩ | ⟨hx, hx0⟩ := abs_cases ((x : Int) - a) <;> rw [hx, hy] <;>
      exact ⟨by omega, fun h => .inr (htie (by omega))⟩

/-- Rounding keeps the order. -/
theorem roundHalfEven_mono {a a' b : Nat} (hb : 0 < b) (h : a ≤ a') : roundHalfEven a b ≤ roundHalfEven a' b := by
  by_contra hlt
  obtain ⟨-, r2⟩ := roundHalfEven_bounds a hb
  obtain ⟨r1, -⟩ := roundHalfEven_bounds a' hb
  have hstep := Nat.mul_le_mul_left b (Nat.not_le.1 hlt)
  rw [Nat.mul_succ] at hstep
  obtain rfl : a = a' := by omega
  exact hlt le_rfl

/-! ### The fields of an image (R157) -/

/-- The image of `n / 10` is the significand `m` at `2^(k - 27)`: `m` is `n 2^27 / (10 2^k)` rounded, and `10 2^k` is at most
`16 n`. -/
structure ImageOf (n k m : Nat) : Prop where
  small : k < 17
  scale : 10 * 2 ^ k ≤ 16 * n
  rounded : m = roundHalfEven (n * 2 ^ 27) (10 * 2 ^ k)
  value : value150 (f32 n 10) = m * 2 ^ (k + 123)
  exponent : k + 123 ≤ ((f32 n 10).extractLsb' 23 8).toNat ∧ ((f32 n 10).extractLsb' 23 8).toNat ≤ k + 124
  even : m % 2 = 0 → (f32 n 10).getLsbD 0 = false

/-- The exponent field of a pattern built by `f32`, with and without a carry out of the significand. -/
theorem exponent_bounds {k m : Nat} (hk : k < 100) (h1 : 2 ^ 23 ≤ m) (h2 : m ≤ 2 ^ 24) :
    k + 123 ≤ ((BitVec.ofNat 32 ((k + 122) * 2 ^ 23 + m)).extractLsb' 23 8).toNat ∧
      ((BitVec.ofNat 32 ((k + 122) * 2 ^ 23 + m)).extractLsb' 23 8).toNat ≤ k + 124 := by
  obtain hlt | rfl := Nat.lt_or_eq_of_le h2
  · rw [show (k + 122) * 2 ^ 23 + m = (k + 123) * 2 ^ 23 + (m - 2 ^ 23) by omega]
    obtain ⟨he, -⟩ := fields_ofNat (e := k + 123) (m := m - 2 ^ 23) (by omega) (by omega)
    omega
  · rw [show (k + 122) * 2 ^ 23 + 2 ^ 24 = (k + 124) * 2 ^ 23 + 0 by omega]
    obtain ⟨he, -⟩ := fields_ofNat (e := k + 124) (m := 0) (by omega) (by omega)
    omega

theorem exists_imageOf {n : Nat} (hpos : 0 < n) (hn : n ≤ 65535) : ∃ k m, ImageOf n k m := by
  obtain ⟨h1, h2⟩ := log2_quotient (n := n) (d := 10) (by decide) (by omega)
  have hk : Nat.log2 (16 * n / 10) < 17 := (Nat.log2_lt (by omega)).2 (by omega)
  obtain ⟨hmag, hsign⟩ := magnitude150_f32 (n := n) (d := 10) (by decide) (by omega) (by omega)
  obtain ⟨m1, m2⟩ := significand_bounds (by decide) h1 h2
  have hpattern : f32 n 10 = BitVec.ofNat 32 ((Nat.log2 (16 * n / 10) + 122) * 2 ^ 23 +
      roundHalfEven (n * 2 ^ 27) (10 * 2 ^ Nat.log2 (16 * n / 10))) := if_neg (by omega)
  refine ⟨Nat.log2 (16 * n / 10), _, hk, h1, rfl, ?_, ?_, ?_⟩
  · rw [value150, hsign, if_neg Bool.false_ne_true, hmag]
    push_cast
    rfl
  · rw [hpattern]
    exact exponent_bounds (by omega) m1 m2
  · intro heven
    have hlow : ((Nat.log2 (16 * n / 10) + 122) * 2 ^ 23 +
        roundHalfEven (n * 2 ^ 27) (10 * 2 ^ Nat.log2 (16 * n / 10))) % 2 = 0 := by omega
    rw [hpattern, BitVec.getLsbD_ofNat, Nat.testBit_zero, hlow]
    rfl

/-- How far ten times a multiple of `2^(k + 123)` is from `n`, both as multiples of `2^-150`. -/
theorem scaled_error (n j k : Nat) :
    10 * ((j : Int) * 2 ^ (k + 123)) - n * 2 ^ 150 = (((10 * 2 ^ k : Nat) : Int) * j - (n * 2 ^ 27 : Nat)) * 2 ^ 123 := by
  rw [show (2 : Int) ^ 150 = 2 ^ 27 * 2 ^ 123 from (pow_add 2 27 123), pow_add]
  push_cast
  ring

theorem abs_scaled_error (n j k : Nat) : |10 * ((j : Int) * 2 ^ (k + 123)) - n * 2 ^ 150| =
    |((10 * 2 ^ k : Nat) : Int) * j - (n * 2 ^ 27 : Nat)| * 2 ^ 123 := by
  rw [scaled_error, abs_mul, abs_of_pos (a := (2 : Int) ^ 123) (by positivity)]

/-! ### The value nearest to `n / 10` (R157) -/

/-- A pattern's magnitude is below `2^(23 + e)`, or a multiple of `2^e`: no other ones lie between. -/
theorem magnitude150_cases (y : Single) {e : Nat} (he : 0 < e) :
    magnitude150 y < 2 ^ 23 * 2 ^ e ∨ ∃ j, magnitude150 y = j * 2 ^ e := by
  have hfrac := (y.extractLsb' 0 23).isLt
  unfold magnitude150
  generalize (y.extractLsb' 0 23).toNat = f at *
  generalize (y.extractLsb' 23 8).toNat = x
  split
  · have htwo : 2 ≤ 2 ^ e := Nat.le_self_pow he.ne' 2
    exact .inl (by omega)
  · obtain hlt | hge := Nat.lt_or_ge x e
    · refine .inl ?_
      calc (2 ^ 23 + f) * 2 ^ x < 2 ^ 24 * 2 ^ x := Nat.mul_lt_mul_of_pos_right (by omega) (Nat.two_pow_pos x)
        _ = 2 ^ 23 * 2 ^ (x + 1) := by ring
        _ ≤ 2 ^ 23 * 2 ^ e := Nat.mul_le_mul_left _ (Nat.pow_le_pow_right (by decide) hlt)
    · refine .inr ⟨(2 ^ 23 + f) * 2 ^ (x - e), ?_⟩
      rw [Nat.mul_assoc, ← Nat.pow_add, Nat.sub_add_cancel hge]

theorem value150_cases (y : Single) {e : Nat} (he : 0 < e) :
    value150 y < ((2 ^ 23 * 2 ^ e : Nat) : Int) ∨ ∃ j : Nat, value150 y = ((j * 2 ^ e : Nat) : Int) := by
  unfold value150
  split
  · have hpos : 0 < 2 ^ 23 * 2 ^ e := by positivity
    exact .inl (by omega)
  · exact (magnitude150_cases y he).imp Int.ofNat_lt.2 fun ⟨j, hj⟩ => ⟨j, congrArg _ hj⟩

/-- The image is nearer than any value below a multiple `g` of its unit that is itself below `n / 10`. -/
theorem ImageOf.lt_of_below {n k m g : Nat} (h : ImageOf n k m) (hg : 10 * 2 ^ k * g ≤ n * 2 ^ 27) {v : Int}
    (hv : v < ((g * 2 ^ (k + 123) : Nat) : Int)) :
    |10 * value150 (f32 n 10) - n * 2 ^ 150| < |10 * v - n * 2 ^ 150| := by
  have hunit : (0 : Int) ≤ 2 ^ 123 := by positivity
  obtain ⟨hnear, -⟩ := roundHalfEven_nearest (n * 2 ^ 27) g (b := 10 * 2 ^ k) (by positivity)
  have hgrid := mul_le_mul_of_nonneg_right hnear hunit
  rw [← h.rounded, ← abs_scaled_error, ← abs_scaled_error, ← h.value] at hgrid
  have hbelow : 10 * ((g : Int) * 2 ^ (k + 123)) - n * 2 ^ 150 ≤ 0 := by
    rw [scaled_error]
    exact mul_nonpos_of_nonpos_of_nonneg (Int.sub_nonpos_of_le (by rw [← Nat.cast_mul]; exact Int.ofNat_le.2 hg)) hunit
  rw [abs_of_nonpos hbelow] at hgrid
  refine lt_of_le_of_lt hgrid (lt_of_lt_of_le ?_ (neg_le_abs _))
  push_cast at hv
  linarith

/-- The image of `n / 10` is as near to it as any pattern, and the only one so near, or even. -/
theorem ImageOf.nearest {n k m : Nat} (h : ImageOf n k m) (y : Single) :
    |10 * value150 (f32 n 10) - n * 2 ^ 150| ≤ |10 * value150 y - n * 2 ^ 150| ∧
    (|10 * value150 (f32 n 10) - n * 2 ^ 150| = |10 * value150 y - n * 2 ^ 150| →
      value150 y = value150 (f32 n 10) ∨ (f32 n 10).getLsbD 0 = false) := by
  have hunit : (0 : Int) < 2 ^ 123 := by positivity
  obtain hlt | ⟨j, hj⟩ := value150_cases y (e := k + 123) (by omega)
  · have hscale := h.scale
    have hfar := h.lt_of_below (by omega) hlt
    exact ⟨hfar.le, fun heq => absurd heq hfar.ne⟩
  · obtain ⟨hnear, htie⟩ := roundHalfEven_nearest (n * 2 ^ 27) j (b := 10 * 2 ^ k) (by positivity)
    rw [← h.rounded] at hnear htie
    rw [hj, Nat.cast_mul, Nat.cast_pow, Nat.cast_ofNat, h.value, abs_scaled_error, abs_scaled_error]
    refine ⟨mul_le_mul_of_nonneg_right hnear hunit.le, fun heq => ?_⟩
    obtain rfl | h0 := htie (mul_right_cancel₀ hunit.ne' heq)
    · exact .inl rfl
    · exact .inr (h.even h0)

/-- Settles O43: an image is its significand rounded, and no pattern lies between the multiples it is rounded to. -/
theorem singlesAreNearest : Obligations.SinglesAreNearest := by
  refine ⟨fun n y hn _ => ?_, fun n hn => value150_f32_whole hn, fun x => ⟨rfl, value150_negate x⟩⟩
  obtain rfl | hpos := Nat.eq_zero_or_pos n
  · have hzero : value150 (f32 0 10) = 0 := by decide
    refine ⟨by decide, ?_, fun _ => .inr (by decide)⟩
    rw [hzero]
    simp
  · obtain ⟨k, m, h⟩ := exists_imageOf hpos hn
    refine ⟨?_, h.nearest y⟩
    obtain ⟨-, hexp⟩ := h.exponent
    have hsmall := h.small
    rw [isFinite, bne_iff_ne, ne_eq, ← BitVec.toNat_inj]
    show ¬ _ = 255
    omega

/-! ### Variant B's round trip (R153) -/

theorem mod_five_of_mul_pow {n i : Nat} (h : n * 2 ^ i % 5 = 0) : n % 5 = 0 :=
  Nat.mod_eq_zero_of_dvd
    (Nat.Coprime.dvd_of_dvd_mul_right (Nat.Coprime.pow_right i (by decide)) (Nat.dvd_of_mod_eq_zero h))

/-- The image is exact for multiples of 5 only (R153). -/
theorem ImageOf.exact_iff {n k m : Nat} (h : ImageOf n k m) : 10 * value150 (f32 n 10) = n * 2 ^ 150 ↔ n % 5 = 0 := by
  have hunit : (2 : Int) ^ 123 ≠ 0 := by positivity
  rw [← sub_eq_zero, h.value, scaled_error, mul_eq_zero, or_iff_left hunit, sub_eq_zero, ← Nat.cast_mul, Nat.cast_inj]
  refine ⟨fun hexact => mod_five_of_mul_pow (i := 27) (by rw [← hexact, Nat.mul_assoc]; omega), fun hdvd => ?_⟩
  have hsmall := h.small
  have hsplit : n * 2 ^ 27 = 10 * 2 ^ k * (n / 5 * 2 ^ (26 - k)) := by
    have hpow : 2 ^ 26 = 2 ^ k * 2 ^ (26 - k) := by rw [← Nat.pow_add]; congr 1; omega
    calc n * 2 ^ 27 = 10 * (n / 5) * 2 ^ 26 := by omega
      _ = 10 * 2 ^ k * (n / 5 * 2 ^ (26 - k)) := by rw [hpow]; ring
  rw [h.rounded, hsplit, roundHalfEven_mul_left _ (by positivity)]

/-- No quotient by `10 p` lies half-way between two integers but for a multiple of 5. -/
theorem mod_five_of_tie {n p m : Nat}
    (h : 2 * (n * 2 ^ 27) = 2 * (10 * p * m) + 10 * p ∨ 2 * (10 * p * m) = 2 * (n * 2 ^ 27) + 10 * p) : n % 5 = 0 := by
  refine mod_five_of_mul_pow (i := 27) ?_
  rw [Nat.mul_assoc] at h
  generalize n * 2 ^ 27 = x at *
  generalize p * m = y at *
  omega

theorem two_mul_abs_lt {a c b : Nat} (r1 : 2 * a ≤ 2 * c + b) (r2 : 2 * c ≤ 2 * a + b)
    (htie : ¬ (2 * a = 2 * c + b ∨ 2 * c = 2 * a + b)) : 2 * |(c : Int) - a| < b := by
  obtain ⟨habs, -⟩ | ⟨habs, -⟩ := abs_cases ((c : Int) - a) <;> rw [habs] <;> omega

/-- Otherwise it is off by less than half a unit in the last place (R153). -/
theorem ImageOf.error_lt {n k m : Nat} (h : ImageOf n k m) (h5 : n % 5 ≠ 0) :
    2 * |10 * value150 (f32 n 10) - n * 2 ^ 150| < 10 * 2 ^ ((f32 n 10).extractLsb' 23 8).toNat := by
  have hunit : (0 : Int) < 2 ^ 123 := by positivity
  have hhalf : 2 * |((10 * 2 ^ k : Nat) : Int) * m - (n * 2 ^ 27 : Nat)| < (10 * 2 ^ k : Nat) := by
    obtain ⟨r1, r2⟩ := roundHalfEven_bounds (n * 2 ^ 27) (b := 10 * 2 ^ k) (by positivity)
    rw [← h.rounded] at r1 r2
    rw [← Nat.cast_mul]
    exact two_mul_abs_lt r1 r2 (mt mod_five_of_tie h5)
  calc 2 * |10 * value150 (f32 n 10) - n * 2 ^ 150|
      = 2 * |((10 * 2 ^ k : Nat) : Int) * m - (n * 2 ^ 27 : Nat)| * 2 ^ 123 := by
        rw [h.value, abs_scaled_error, mul_assoc]
    _ < (10 * 2 ^ k : Nat) * 2 ^ 123 := mul_lt_mul_of_pos_right hhalf hunit
    _ = 10 * 2 ^ (k + 123) := by rw [pow_add, ← mul_assoc]; push_cast; rfl
    _ ≤ 10 * 2 ^ ((f32 n 10).extractLsb' 23 8).toNat := by
        have hpow : (2 : Int) ^ (k + 123) ≤ 2 ^ ((f32 n 10).extractLsb' 23 8).toNat :=
          pow_le_pow_right₀ (by decide) h.exponent.1
        linarith

/-- Settles O41: the two bytes of `v` are its field again; its image is a significand rounded, exactly if 5 divides `v`. -/
theorem variantBRoundTrip : Obligations.VariantBRoundTrip := by
  intro v hv
  have hfield : field16 (BitVec.ofNat 8 (v / 256)) (BitVec.ofNat 8 v) = v := by
    rw [field16, BitVec.toNat_ofNat, BitVec.toNat_ofNat]
    omega
  refine ⟨by rw [humidity, hfield], fun hle => ?_, ?_⟩
  · have hsign : tempSign (BitVec.ofNat 8 (v / 256)) = false := by
      rw [tempSign_eq, BitVec.toNat_ofNat]
      exact decide_eq_false (by omega)
    have hmag : tempMagnitude (BitVec.ofNat 8 (v / 256)) (BitVec.ofNat 8 v) = v := by
      rw [tempMagnitude_eq, BitVec.toNat_ofNat, BitVec.toNat_ofNat]
      omega
    rw [temperature_b_of_unsigned hsign, hmag]
  · obtain rfl | hpos := Nat.eq_zero_or_pos v
    · have hzero : value150 (f32 0 10) = 0 := by decide
      simp [hzero]
    · obtain ⟨k, m, h⟩ := exists_imageOf hpos hv
      exact ⟨h.exact_iff, h.error_lt⟩

/-! ### Tenths and their images (R158) -/

/-- The tenths read back depend on the value alone, and keep its order. -/
theorem tenthsOf_mono {x y : Single} (h : value150 x ≤ value150 y) : tenthsOf x ≤ tenthsOf y := by
  revert h
  unfold value150 tenthsOf
  have hmono : ∀ {a b : Nat}, a ≤ b → roundHalfEven (10 * a) (2 ^ 150) ≤ roundHalfEven (10 * b) (2 ^ 150) :=
    fun hab => roundHalfEven_mono (Nat.two_pow_pos 150) (Nat.mul_le_mul_left 10 hab)
  have hzero : roundHalfEven (10 * 0) (2 ^ 150) = 0 := roundHalfEven_mul_left 0 (Nat.two_pow_pos 150)
  generalize 2 ^ 150 = unit at *
  generalize magnitude150 x = a at *
  generalize magnitude150 y = b at *
  cases x.getLsbD 31 <;> cases y.getLsbD 31 <;> simp only [if_true, Bool.false_eq_true, if_false] <;>
    intro h
  · exact Int.ofNat_le.2 (hmono (by omega))
  · obtain ⟨rfl, rfl⟩ : a = 0 ∧ b = 0 := by omega
    rw [hzero]
    rfl
  · omega
  · have := hmono (a := b) (b := a) (by omega)
    omega

theorem imageOfTenths_natCast (n : Nat) : imageOfTenths n = f32 n 10 := by
  simp [imageOfTenths]

theorem imageOfTenths_neg {n : Nat} (hpos : 0 < n) : imageOfTenths (-(n : Int)) = negate (f32 n 10) := by
  simp [imageOfTenths, hpos]

theorem humidity_eq_image (v : Variant) (x0 x1 : Byte) : humidity v x0 x1 = imageOfTenths (hX10 v x0 x1) := by
  rw [imageOfTenths_natCast]
  cases v with
  | a => exact f32_whole _
  | b => rfl

/-- TEMP is the image of its tenths but for the sign of zero (R155, R158). -/
theorem temperature_eq_image (v : Variant) (x2 x3 : Byte) :
    temperature v x2 x3 = imageOfTenths (tX10 v x2 x3) ∨ tX10 v x2 x3 = 0 ∧ temperature v x2 x3 = 0x80000000#32 := by
  cases v with
  | a => exact .inl ((f32_whole _).trans (imageOfTenths_natCast _).symm)
  | b =>
    cases hsign : tempSign x2 with
    | false =>
      rw [temperature_b_of_unsigned hsign, tX10_b_of_unsigned hsign, imageOfTenths_natCast]
      exact .inl rfl
    | true =>
      rw [temperature_b_of_signed hsign, tX10_b_of_signed hsign]
      obtain hzero | hpos := Nat.eq_zero_or_pos (tempMagnitude x2 x3)
      · rw [hzero]
        exact .inr ⟨rfl, by decide⟩
      · exact .inl (imageOfTenths_neg hpos).symm

theorem tenthsOf_imageOfTenths {t : Int} (ht : t.natAbs ≤ 65535) : tenthsOf (imageOfTenths t) = t := by
  unfold imageOfTenths
  split
  · rw [tenthsOf_negate_f32 ht]
    omega
  · rw [tenthsOf_f32 ht]
    omega

/-- Settles O44: the tenths are read back from their images in the order of the values. -/
theorem tenthsCompareAsTheirSingles : Obligations.TenthsCompareAsTheirSingles := by
  refine ⟨fun v x0 x1 x2 x3 => ⟨humidity_eq_image v x0 x1, temperature_eq_image v x2 x3⟩, fun a b ha hb => ?_⟩
  · have hle : ∀ {c d : Int}, c.natAbs ≤ 65535 → d.natAbs ≤ 65535 →
        value150 (imageOfTenths c) ≤ value150 (imageOfTenths d) → c ≤ d := fun hc hd h => by
      simpa only [tenthsOf_imageOfTenths hc, tenthsOf_imageOfTenths hd] using tenthsOf_mono h
    refine ⟨⟨fun hlt => ?_, fun hlt => ?_⟩, fun heq => by rw [heq], fun heq => ?_⟩
    · exact not_le.1 fun h => absurd (hle hb ha h) (not_le.2 hlt)
    · refine lt_of_le_of_ne (hle ha hb hlt.le) fun heq => ?_
      rw [heq] at hlt
      exact lt_irrefl _ hlt
    · exact le_antisymm (hle ha hb heq.le) (hle hb ha heq.ge)

/-! ### What the extractor can produce (41_extractor.md section 3) -/

/-- Settles O46: a byte is at most 255, fifteen bits at most 32767, two bytes at most 65535. -/
theorem extractorRange : Obligations.ExtractorRange := by
  intro x0 x1 x2 x3
  have h0 := x0.isLt
  have h2 := x2.isLt
  have hmag := tempMagnitude_le x2 x3
  have hhum := field16_le x0 x1
  refine ⟨?_, ?_, ?_, hhum⟩
  · simp only [tX10]
    omega
  · simp only [hX10]
    omega
  · simp only [tX10]
    split <;> omega

end Sys2Proof.Machine

/-! Every command terminates within bounds (spec/40_decoder.md R130; spec/70_reset_and_hazards.md R250): O57, O58. Each
micro-step is charged a price, and what is left to pay falls by that price. -/

namespace Sys2Proof.Machine

/-! ### Prices (R130, R250) -/

/-- What the line operations, and a micro-step without one, are charged. -/
structure Prices where
  dir : Nat
  wr : Nat
  rd : Nat
  ms : Nat → Nat
  us : Nat → Nat
  quiet : Nat

/-- The price of one line operation. -/
def Prices.of (P : Prices) : LineOp → Nat
  | .dir _ => P.dir
  | .wr _ => P.wr
  | .rd _ => P.rd
  | .dlyMs n => P.ms n
  | .dlyUs n => P.us n

/-- The price of a trace. -/
def Prices.cost (P : Prices) (t : List LineOp) : Nat := (t.map P.of).sum

theorem Prices.cost_cons (P : Prices) (o : LineOp) (t : List LineOp) : P.cost (o :: t) = P.of o + P.cost t := by
  simp [Prices.cost]

/-- The most that further polls of a wait cost at ELAPSED `e`, each a read and a tick (R116). -/
def Prices.polls (P : Prices) (p : Params) (k : WaitId) (e : Nat) : Nat :=
  (ceiling p k - e) / p.tickUs * (P.rd + P.us p.tickUs)

/-- The most a wait costs from its entry, at its longest successful exit. -/
def Prices.wait (P : Prices) (p : Params) (k : WaitId) : Nat := P.polls p k 0 + P.rd

/-- The most that is left of a bit after its marker: the delay, the sample, W5 (R123). -/
def Prices.sampled (P : Prices) (p : Params) : Nat := P.us p.tSampleUs + (P.rd + P.wait p .w5)

/-- The most that `n` further bits cost, the one tick of a `Timeout`, and the evaluation of the frame. -/
def Prices.bits (P : Prices) (p : Params) (n : Nat) : Nat :=
  n * (P.wait p .w4 + P.sampled p) + (P.us p.tickUs + 4 * P.quiet)

/-- The most that is left after the exit of a wait. -/
def Prices.after (P : Prices) (s : State) : WaitId → Nat
  | .w1 => P.wait s.params .w2 + (P.wait s.params .w3 + P.bits s.params 40)
  | .w2 => P.wait s.params .w3 + P.bits s.params 40
  | .w3 => P.bits s.params 40
  | .w4 => P.sampled s.params + P.bits s.params (39 - bitNumber s)
  | .w5 => P.bits s.params (39 - bitNumber s)

/-- The most that is left once START has released the line. -/
def Prices.waits (P : Prices) (s : State) : Nat := P.wait s.params .w1 + P.after s .w1

/-- The most that is left of the command in progress. -/
def Prices.left (P : Prices) (s : State) : Nat :=
  match s.phase with
  | .idle => 0
  | .stDir => P.dir + (P.wr + (P.ms (startLowMs s.params s.variant) + (P.wr + (P.us s.params.tStartHighUs +
      (P.dir + P.waits s)))))
  | .stLow => P.wr + (P.ms (startLowMs s.params s.variant) + (P.wr + (P.us s.params.tStartHighUs + (P.dir + P.waits s))))
  | .stHold => P.ms (startLowMs s.params s.variant) + (P.wr + (P.us s.params.tStartHighUs + (P.dir + P.waits s)))
  | .stHigh => P.wr + (P.us s.params.tStartHighUs + (P.dir + P.waits s))
  | .stRelHold => P.us s.params.tStartHighUs + (P.dir + P.waits s)
  | .stRelease => P.dir + P.waits s
  | .rd k => P.polls s.params k s.elapsed + P.rd + P.after s k
  | .tk k => P.polls s.params k s.elapsed + P.after s k
  | .bDly => P.after s .w4
  | .bSmp => P.rd + P.wait s.params .w5 + P.after s .w5
  | .check => 4 * P.quiet
  | .extract => 3 * P.quiet
  | .range => 2 * P.quiet
  | .done => P.quiet
  | .fail => P.quiet

/-! ### Each micro-step is paid for -/

/-- From `s` to `t` one line operation, or a micro-step without one, is paid from what is left. -/
def Paid (P : Prices) (s t : State) : Prop :=
  (∃ o, t.trace = o :: s.trace ∧ P.of o + P.left t ≤ P.left s) ∨ (t.trace = s.trace ∧ P.quiet + P.left t ≤ P.left s)

/-- The line registers are those that PHASE needs: a command may be accepted with any. -/
def LineReady (s : State) : Prop :=
  s.lineOE = driving s.phase ∨ s.phase = .stDir ∨ s.phase = .done ∨ s.phase = .fail

/-- `t` follows `s` in the command in progress. -/
structure Follows (s t : State) : Prop where
  params : t.params = s.params
  host : t.host = s.host
  line : t.phase ≠ .idle → LineReady t
  ends : t.phase = .idle → ∃ r, t.rsp = some r
  paid : ∀ P, Paid P s t

theorem bitNumber_le (s : State) : bitNumber s ≤ 39 := by
  unfold bitNumber
  omega

theorem Prices.bits_succ (P : Prices) (p : Params) (n : Nat) :
    P.bits p (n + 1) = P.wait p .w4 + P.sampled p + P.bits p n := by
  simp only [Prices.bits, Nat.add_mul]
  omega

/-- A tick within the ceiling is one poll less (R116). -/
theorem Prices.polls_tick (P : Prices) {p : Params} {k : WaitId} {e : Nat} (htick : 1 ≤ p.tickUs)
    (hc : e + p.tickUs ≤ ceiling p k) : P.polls p k e = P.rd + P.us p.tickUs + P.polls p k (e + p.tickUs) := by
  rw [Prices.polls, Nat.div_eq_sub_div htick (by omega), Nat.sub_sub, Nat.add_mul, Nat.one_mul, Nat.add_comm, Prices.polls]

/-- A `Timeout` is paid in every wait: its last tick and its completion. -/
theorem Prices.le_after (P : Prices) (s : State) (k : WaitId) : P.us s.params.tickUs + 4 * P.quiet ≤ P.after s k := by
  cases k <;> simp only [Prices.after, Prices.bits] <;> omega

/-- At the entry of a bit, what is left is that bit and the ones after it. -/
theorem Prices.left_marker (P : Prices) {s : State} (hp : s.phase = .rd .w4) (he : s.elapsed = 0) :
    P.left s = P.bits s.params (40 - bitNumber s) := by
  have hle := bitNumber_le s
  rw [show 40 - bitNumber s = 39 - bitNumber s + 1 by omega, P.bits_succ]
  simp only [Prices.left, hp, he, Prices.after, Prices.wait]
  omega

theorem left_advance (P : Prices) (s : State) : P.left (advance s) ≤ P.bits s.params (39 - bitNumber s) := by
  obtain hlt | heq := Nat.lt_or_eq_of_le (bitNumber_le s)
  · obtain ⟨hp, he, hb⟩ := advance_of_lt hlt
    rw [P.left_marker hp he, hb, advance_params, show 40 - (bitNumber s + 1) = 39 - bitNumber s by omega]
  · rw [advance_of_last heq]
    simp only [Prices.left, Prices.bits]
    omega

/-- The exit of a wait leaves no more than what was said to be left after it. -/
theorem left_waitExit (P : Prices) (k : WaitId) (s : State) : P.left (waitExit k s) ≤ P.after s k := by
  cases k with
  | w1 | w2 =>
    simp only [waitExit, Prices.left, Prices.after, Prices.wait]
    omega
  | w3 => exact (P.left_marker (s := waitExit .w3 s) rfl rfl).le
  | w4 => exact le_rfl
  | w5 => exact left_advance P s

/-- The exit of a wait stays in the transaction. -/
theorem waitExit_phase_ne_idle (k : WaitId) (s : State) :
    (waitExit k s).phase ≠ .idle ∧ driving (waitExit k s).phase = false := by
  cases k with
  | w1 | w2 | w3 | w4 => exact ⟨nofun, rfl⟩
  | w5 =>
    obtain hlt | heq := Nat.lt_or_eq_of_le (bitNumber_le s)
    · obtain ⟨hp, -, -⟩ := advance_of_lt hlt
      simp [waitExit, hp, driving]
    · simp [waitExit, advance_of_last heq, driving]

/-- A micro-step with a line operation, in the transaction. -/
theorem Follows.of_op {s t : State} {o : LineOp} (hparams : t.params = s.params) (hhost : t.host = s.host)
    (htrace : t.trace = o :: s.trace) (hidle : t.phase ≠ .idle) (hline : LineReady t)
    (hpaid : ∀ P : Prices, P.of o + P.left t ≤ P.left s) : Follows s t :=
  ⟨hparams, hhost, fun _ => hline, fun h => absurd h hidle, fun P => .inl ⟨o, htrace, hpaid P⟩⟩

/-- A micro-step without one, in the transaction. -/
theorem Follows.of_quiet {s t : State} (hparams : t.params = s.params) (hhost : t.host = s.host)
    (htrace : t.trace = s.trace) (hidle : t.phase ≠ .idle) (hline : LineReady t)
    (hpaid : ∀ P : Prices, P.quiet + P.left t ≤ P.left s) : Follows s t :=
  ⟨hparams, hhost, fun _ => hline, fun h => absurd h hidle, fun P => .inr ⟨htrace, hpaid P⟩⟩

/-- A read of a wait is paid, whether it finds its level or not (rows T7, T8). -/
theorem follows_read {k : WaitId} {s : State} (hp : s.phase = .rd k) (ho : s.lineOE = false) :
    ∃ t, perform (select s.phase) s = .next t ∧ Follows s t := by
  refine ⟨_, perform_select_read hp ho, ?_⟩
  have hleft : ∀ P : Prices, P.left s = P.polls s.params k s.elapsed + P.rd + P.after s k := fun P => by
    rw [Prices.left, hp]
  split
  · refine .of_op rfl rfl rfl nofun (.inl ho) fun P => ?_
    have htick : P.left { s.afterRead with phase := .tk k } = P.polls s.params k s.elapsed + P.after s k := rfl
    rw [htick, hleft, Prices.of]
    omega
  · obtain ⟨hidle, hdriving⟩ := waitExit_phase_ne_idle k s.afterRead
    refine .of_op (by simp) (by simp) ((waitExit_trace _ _).trans (afterRead_trace s)) hidle
      (.inl (by simp [ho, hdriving])) fun P => ?_
    have hexit : P.left (waitExit k s.afterRead) ≤ P.after s k := left_waitExit P k s.afterRead
    rw [hleft, Prices.of]
    omega

/-- A tick of a wait is paid, within the ceiling and beyond it (rows T9, T10). -/
theorem follows_tick {k : WaitId} {s : State} (hp : s.phase = .tk k) (ho : s.lineOE = false) (htick : 1 ≤ s.params.tickUs) :
    ∃ t, perform (select s.phase) s = .next t ∧ Follows s t := by
  refine ⟨_, perform_select_tick hp, ?_⟩
  have hleft : ∀ P : Prices, P.left s = P.polls s.params k s.elapsed + P.after s k := fun P => by rw [Prices.left, hp]
  split
  · rename_i hc
    refine .of_op rfl rfl rfl nofun (.inl ho) fun P => ?_
    have hread : P.left { delayUs s.params.tickUs s with elapsed := s.elapsed + s.params.tickUs, phase := .rd k } =
      P.polls s.params k (s.elapsed + s.params.tickUs) + P.rd + P.after s k := rfl
    rw [hread, hleft, P.polls_tick htick hc, Prices.of]
    omega
  · refine .of_op rfl rfl rfl nofun (.inl ho) fun P => ?_
    have hafter := P.le_after s k
    rw [hleft, Prices.of]
    simp only [Prices.left, raise_phase]
    omega

/-- The frame check is paid (rows T13 to T15). -/
theorem follows_check {s : State} (hp : s.phase = .check) (ho : s.lineOE = false) :
    ∃ t, perform (select s.phase) s = .next t ∧ Follows s t := by
  have hstep : perform (select s.phase) s = checkFrame s := by
    rw [hp]
    rfl
  have hleft : ∀ P : Prices, P.left s = 4 * P.quiet := fun P => by rw [Prices.left, hp]
  refine ⟨_, hstep, ?_⟩
  obtain ⟨-, -, ht⟩ | ⟨-, -, ht⟩ | ⟨-, ht⟩ := checkFrame_cases (s := s) rfl <;> rw [ht] <;>
    refine .of_quiet rfl rfl rfl nofun (.inl ho) fun P => ?_ <;> rw [hleft] <;> simp only [Prices.left, finish_phase, raise_phase] <;>
    omega

/-- The range test is paid (rows T17, T18). -/
theorem follows_range {s : State} (hp : s.phase = .range) (ho : s.lineOE = false) :
    ∃ t, perform (select s.phase) s = .next t ∧ Follows s t := by
  have hstep : perform (select s.phase) s = exec .rangeCheck s := by
    rw [hp]
    rfl
  have hleft : ∀ P : Prices, P.left s = 2 * P.quiet := fun P => by rw [Prices.left, hp]
  refine ⟨_, hstep, ?_⟩
  obtain ht | ht := exec_rangeCheck_cases (s := s) rfl <;> rw [ht] <;>
    refine .of_quiet rfl rfl rfl nofun (.inl ho) fun P => ?_ <;> rw [hleft] <;> simp only [Prices.left, finish_phase, raise_phase] <;>
    omega

/-- What PHASE selects in a command in progress is paid, row by row of R112. -/
theorem follows_select {s : State} (hbusy : s.phase ≠ .idle) (hl : LineReady s) (htick : 1 ≤ s.params.tickUs) :
    ∃ t, perform (select s.phase) s = .next t ∧ Follows s t := by
  have hline : ∀ {p}, s.phase = p → p ≠ .stDir → p ≠ .done → p ≠ .fail → s.lineOE = driving p := by
    rintro _ rfl h1 h2 h3
    simpa [LineReady, h1, h2, h3] using hl
  have hleft : ∀ {p}, s.phase = p → ∀ P : Prices, P.left { s with phase := p } = P.left s := by
    rintro _ rfl P
    rfl
  cases hp : s.phase with
  | idle => exact absurd hp hbusy
  | stDir => exact ⟨_, exec_start_stDir hp, .of_op rfl rfl rfl nofun (.inl rfl) fun P => hleft hp P ▸ le_rfl⟩
  | stLow =>
    exact ⟨_, exec_start_stLow hp (hline hp nofun nofun nofun), .of_op rfl rfl rfl nofun
      (.inl (hline hp nofun nofun nofun :)) fun P => hleft hp P ▸ le_rfl⟩
  | stHold =>
    exact ⟨_, exec_start_stHold hp, .of_op rfl rfl rfl nofun
      (.inl (hline hp nofun nofun nofun :)) fun P => hleft hp P ▸ le_rfl⟩
  | stHigh =>
    exact ⟨_, exec_start_stHigh hp (hline hp nofun nofun nofun), .of_op rfl rfl rfl nofun
      (.inl (hline hp nofun nofun nofun :)) fun P => hleft hp P ▸ le_rfl⟩
  | stRelHold =>
    exact ⟨_, exec_start_stRelHold hp, .of_op rfl rfl rfl nofun
      (.inl (hline hp nofun nofun nofun :)) fun P => hleft hp P ▸ le_rfl⟩
  | stRelease =>
    exact ⟨_, exec_start_stRelease hp, .of_op rfl rfl rfl nofun (.inl rfl) fun P => hleft hp P ▸ le_rfl⟩
  | rd k => exact hp ▸ follows_read hp (hline hp nofun nofun nofun)
  | tk k => exact hp ▸ follows_tick hp (hline hp nofun nofun nofun) htick
  | bDly =>
    exact ⟨_, exec_rdbit_bDly hp, .of_op rfl rfl rfl nofun
      (.inl (hline hp nofun nofun nofun :)) fun P => hleft hp P ▸ (Nat.add_assoc ..).ge⟩
  | bSmp =>
    exact ⟨_, exec_rdbit_bSmp hp (hline hp nofun nofun nofun), .of_op rfl rfl rfl nofun
      (.inl (hline hp nofun nofun nofun :)) fun P => hleft hp P ▸ (Nat.add_assoc ..).ge⟩
  | check => exact hp ▸ follows_check hp (hline hp nofun nofun nofun)
  | extract =>
    refine ⟨_, rfl, .of_quiet rfl rfl rfl nofun (.inl (hline hp nofun nofun nofun :)) fun P => hleft hp P ▸ ?_⟩
    simp only [Prices.left]
    omega
  | range => exact hp ▸ follows_range hp (hline hp nofun nofun nofun)
  | done =>
    exact ⟨_, rfl, rfl, rfl, fun h => absurd rfl h, fun _ => ⟨_, rfl⟩, fun P => .inr ⟨rfl, hleft hp P ▸ le_rfl⟩⟩
  | fail =>
    exact ⟨_, rfl, rfl, rfl, fun h => absurd rfl h, fun _ => ⟨_, rfl⟩, fun P => .inr ⟨rfl, hleft hp P ▸ le_rfl⟩⟩

/-! ### A command in progress comes to its end -/

/-- A command is in progress, and no reset is coming. -/
structure InProgress (s : State) : Prop where
  busy : s.phase ≠ .idle
  line : LineReady s
  tick : 1 ≤ s.params.tickUs
  noReset : .reset ∉ s.host

/-- While BUSY taking the inputs drops host events at most. -/
theorem host_takeInputs_subset (s : State) : ∀ e ∈ (takeInputs s).host, e ∈ s.host := by
  unfold takeInputs
  repeat' split
  all_goals simp_all

theorem left_takeInputs (P : Prices) (s : State) : P.left (takeInputs s) = P.left s := by
  have hbit : bitNumber (takeInputs s) = bitNumber s := by simp [bitNumber]
  have hafter : ∀ k, P.after (takeInputs s) k = P.after s k := fun k => by
    cases k <;> simp only [Prices.after, takeInputs_params, hbit]
  have hwaits : P.waits (takeInputs s) = P.waits s := by simp only [Prices.waits, takeInputs_params, hafter]
  simp only [Prices.left, takeInputs_phase, takeInputs_params, takeInputs_variant, takeInputs_elapsed, hafter, hwaits]

/-- A step of a command in progress. -/
theorem InProgress.step {s : State} (h : InProgress s) :
    ∃ t, step s = .next t ∧ (t.phase = .idle ∧ (∃ r, t.rsp = some r) ∨ InProgress t) ∧ ∀ P, Paid P s t := by
  have hreset : ∀ rest, s.host ≠ .reset :: rest := fun rest hh => h.noReset (by simp [hh])
  obtain ⟨t, hstep, ht⟩ := follows_select (s := takeInputs s) (by simpa using h.busy) (by simpa [LineReady] using h.line)
    (by simpa using h.tick)
  refine ⟨t, ?_, ?_, fun P => ?_⟩
  · rw [step_of_not_accepted hreset fun hidle => absurd hidle h.busy, ← hstep, takeInputs_phase]
  · by_cases hidle : t.phase = .idle
    · exact .inl ⟨hidle, ht.ends hidle⟩
    · refine .inr ⟨hidle, ht.line hidle, ?_, fun hmem => ?_⟩
      · rw [ht.params, takeInputs_params]
        exact h.tick
      · rw [ht.host] at hmem
        exact h.noReset (host_takeInputs_subset s _ hmem)
  · have hpaid := ht.paid P
    rwa [Paid, takeInputs_trace, left_takeInputs] at hpaid

/-- Every micro-step and every line operation at price 1: no two steps have the same left to pay. -/
def unitPrices : Prices where
  dir := 1
  wr := 1
  rd := 1
  ms _ := 1
  us _ := 1
  quiet := 1

theorem Paid.left_lt {s t : State} (h : Paid unitPrices s t) : unitPrices.left t < unitPrices.left s := by
  obtain ⟨o, -, hle⟩ | ⟨-, hle⟩ := h
  · have hone : unitPrices.of o = 1 := by cases o <;> rfl
    omega
  · exact Nat.lt_of_lt_of_le (by simp [unitPrices]) hle

theorem Paid.cost_le {P : Prices} {s t : State} (h : Paid P s t) : P.cost t.trace + P.left t ≤ P.cost s.trace + P.left s := by
  obtain ⟨o, htrace, hle⟩ | ⟨htrace, hle⟩ := h
  · rw [htrace, P.cost_cons]
    omega
  · rw [htrace]
    omega

/-- A command in progress ends in a response, having cost what was left at most, at every price. -/
theorem InProgress.ends {s : State} (h : InProgress s) :
    ∃ n t, runs n s = .next t ∧ t.phase = .idle ∧ (∃ r, t.rsp = some r) ∧
      ∀ P : Prices, P.cost t.trace ≤ P.cost s.trace + P.left s := by
  induction hleft : unitPrices.left s using Nat.strong_induction_on generalizing s with
  | _ m ih =>
    obtain ⟨u, hstep, hnext, hpaid⟩ := h.step
    obtain ⟨hidle, hrsp⟩ | hu := hnext
    · exact ⟨1, u, runs_succ_of_next hstep, hidle, hrsp, fun P => by have := (hpaid P).cost_le; omega⟩
    · obtain ⟨n, t, hrun, hidle, hrsp, hcost⟩ := ih _ (hleft ▸ (hpaid _).left_lt) hu rfl
      exact ⟨n + 1, t, (runs_succ_of_next hstep).trans hrun, hidle, hrsp, fun P => by
        have := (hpaid P).cost_le
        have := hcost P
        omega⟩

/-! ### From the command to the response (R130) -/

/-- The most a command costs: START, then the three waits and forty bits at their longest, one tick more, and the steps
without a line operation. -/
def Prices.command (P : Prices) (p : Params) (v : Variant) : Nat :=
  P.dir + (P.wr + (P.ms (startLowMs p v) + (P.wr + (P.us p.tStartHighUs + (P.dir + (P.wait p .w1 + (P.wait p .w2 +
    (P.wait p .w3 + P.bits p 40))))))))

/-- A command that leads into START is a READ command, which leaves VARIANT alone. -/
theorem variant_of_accepted {i : Instr} {s t : State} (hidle : s.phase = .idle) (h : exec i s = .next t)
    (hp : t.phase = .stDir) : t.variant = s.variant := by
  cases i with
  | init v =>
    have h : execInit v s = .next t := h
    obtain ⟨hbusy, -⟩ | ⟨-, rfl⟩ := accepted_cases h
    · exact absurd hidle hbusy
    · split at hp <;> cases hp
  | _ => exact ((exec_framed h).configuration nofun).1

/-- An accepted command is in progress, its trace empty and no more left than a command costs. -/
theorem accepted_inProgress {s t : State} {w : BitVec 3} (hidle : s.phase = .idle) (htick : 1 ≤ s.params.tickUs)
    (hreset : .reset ∉ s.host) (h : exec (decodeCmd w) s = .next t) :
    InProgress t ∧ t.trace = [] ∧ ∀ P : Prices, P.left t ≤ P.command s.params s.variant := by
  have hframe := exec_framed h
  have hphase := exec_decodeCmd_phase hidle h
  refine ⟨⟨?_, ?_, hframe.params ▸ htick, hframe.host ▸ hreset⟩, trace_of_accepted hidle h, fun P => ?_⟩
  · obtain hp | hp | hp := hphase <;> rw [hp] <;> nofun
  · obtain hp | hp | hp := hphase <;> simp [LineReady, hp]
  · obtain hp | hp | hp := hphase
    · simp only [Prices.left, hp, Prices.command, Prices.bits]
      omega
    · simp only [Prices.left, hp, Prices.command, Prices.bits]
      omega
    · rw [← hframe.params, ← variant_of_accepted hidle h hp, Prices.left, hp]
      exact le_rfl

/-- Every command word is answered in IDLE (R81). -/
theorem exec_decodeCmd_answers {s : State} (hidle : s.phase = .idle) (w : BitVec 3) :
    ∃ t, exec (decodeCmd w) s = .next t := by
  unfold decodeCmd
  split <;> simp only [exec, execInit, execReadSample, execReadRaw, execRsvd, startRead, accepted_idle hidle] <;>
    exact ⟨_, rfl⟩

/-- A command ends in a response, and costs no more than `Prices.command` at every price. -/
theorem command_ends {s : State} {w : BitVec 3} {c : BitVec 5} {rest : List HostEvent} (hidle : s.phase = .idle)
    (hh : s.host = .command w c :: rest) (hreset : .reset ∉ rest) (htick : 1 ≤ s.params.tickUs) :
    ∃ n t, runs (n + 1) s = .next t ∧ t.phase = .idle ∧ (∃ r, t.rsp = some r) ∧
      ∀ P : Prices, P.cost t.trace ≤ P.command s.params s.variant := by
  obtain ⟨u, hu⟩ := exec_decodeCmd_answers (s := { s with rsp := none, host := rest, cap := c }) hidle w
  obtain ⟨hprogress, htrace, hleft⟩ :=
    accepted_inProgress (s := { s with rsp := none, host := rest, cap := c }) hidle htick hreset hu
  obtain ⟨n, t, hrun, hend, hrsp, hcost⟩ := hprogress.ends
  refine ⟨n, t, (runs_succ_of_next ((step_accept hidle hh).trans hu)).trans hrun, hend, hrsp, fun P => ?_⟩
  calc P.cost t.trace ≤ P.cost u.trace + P.left u := hcost P
    _ = P.left u := by rw [htrace]; exact Nat.zero_add _
    _ ≤ P.command s.params s.variant := hleft P

/-! ### The prices of the bounds (R130, R250) -/

/-- Nothing costs anything: the prices below name what does. -/
def freePrices : Prices where
  dir := 0
  wr := 0
  rd := 0
  ms _ := 0
  us _ := 0
  quiet := 0

def readPrices : Prices := { freePrices with rd := 1 }
def delayPrices : Prices := { freePrices with ms := fun _ => 1, us := fun _ => 1 }
def dirPrices : Prices := { freePrices with dir := 1 }
def wrPrices : Prices := { freePrices with wr := 1 }
def timePrices : Prices := { freePrices with ms := fun n => 1000 * n, us := fun n => n }

/-- Counting operations is adding prices of 1. -/
theorem countP_eq_cost {P : Prices} {p : LineOp → Bool} (h : ∀ o, P.of o = if p o then 1 else 0) (t : List LineOp) :
    t.countP p = P.cost t := by
  induction t with
  | nil => rfl
  | cons o t ih => rw [List.countP_cons, P.cost_cons, h, ih, Nat.add_comm]

theorem readCount_eq_cost (t : List LineOp) : readCount t = readPrices.cost t :=
  countP_eq_cost (fun o => by cases o <;> rfl) t

theorem delayCount_eq_cost (t : List LineOp) : delayCount t = delayPrices.cost t :=
  countP_eq_cost (fun o => by cases o <;> rfl) t

/-- `NOW` is the price of the trace in time (R15). -/
theorem now_eq_cost (t : List LineOp) : now t = timePrices.cost t := by
  have hmicros : LineOp.micros = timePrices.of := by
    funext o
    cases o <;> rfl
  rw [now, hmicros, Prices.cost]

theorem dirCount_eq_cost (t : List LineOp) :
    t.countP (fun o => o = .dir true ∨ o = .dir false) = dirPrices.cost t :=
  countP_eq_cost (fun o => by rcases o with (_ | _) | _ | _ | _ | _ <;> rfl) t

theorem wrCount_eq_cost (t : List LineOp) :
    t.countP (fun o => o = .wr true ∨ o = .wr false) = wrPrices.cost t :=
  countP_eq_cost (fun o => by rcases o with _ | (_ | _) | _ | _ | _ <;> rfl) t

theorem readPrices_command (p : Params) (v : Variant) : readPrices.command p v =
    maxReads p .w1 + maxReads p .w2 + maxReads p .w3 + 40 * (maxReads p .w4 + 1 + maxReads p .w5) := by
  simp only [Prices.command, Prices.wait, Prices.polls, Prices.bits, Prices.sampled, readPrices, freePrices, maxReads,
    Nat.sub_zero, Nat.add_zero, Nat.mul_one]
  omega

theorem delayPrices_command (p : Params) (v : Variant) : delayPrices.command p v ≤
    2 + (maxReads p .w1 + maxReads p .w2 + maxReads p .w3 + 40 * (maxReads p .w4 + 1 + maxReads p .w5)) := by
  simp only [Prices.command, Prices.wait, Prices.polls, Prices.bits, Prices.sampled, delayPrices, freePrices, maxReads,
    Nat.sub_zero, Nat.add_zero, Nat.zero_add, Nat.mul_one]
  omega

theorem dirPrices_command (p : Params) (v : Variant) : dirPrices.command p v = 2 := by
  simp [Prices.command, Prices.wait, Prices.polls, Prices.bits, Prices.sampled, dirPrices, freePrices]

theorem wrPrices_command (p : Params) (v : Variant) : wrPrices.command p v = 2 := by
  simp [Prices.command, Prices.wait, Prices.polls, Prices.bits, Prices.sampled, wrPrices, freePrices]

/-- In time a wait costs its longest successful exit (R250). -/
theorem timePrices_command (p : Params) (v : Variant) : timePrices.command p v =
    1000 * startLowMs p v + p.tStartHighUs +
      (p.tickUs * (ceiling p .w1 / p.tickUs) + p.tickUs * (ceiling p .w2 / p.tickUs) +
        p.tickUs * (ceiling p .w3 / p.tickUs) + 40 * (p.tickUs * (ceiling p .w4 / p.tickUs) + p.tSampleUs +
          p.tickUs * (ceiling p .w5 / p.tickUs))) + p.tickUs := by
  have hwait : ∀ k, timePrices.wait p k = p.tickUs * (ceiling p k / p.tickUs) := fun k => by
    simp [Prices.wait, Prices.polls, timePrices, freePrices, Nat.mul_comm]
  simp only [Prices.command, Prices.bits, Prices.sampled, hwait]
  simp only [timePrices, freePrices]
  omega

/-- Settles O57: the bounds are what a command costs when reads, delays, `Dir` or `Wr` alone have a price. -/
theorem everyCommandTerminates : Obligations.EveryCommandTerminates := by
  intro s w c rest hidle hh hreset htick
  obtain ⟨n, t, hrun, hend, hrsp, hcost⟩ := command_ends hidle hh hreset htick
  refine ⟨n, t, hrun, hend, hrsp, ?_, ?_, ?_, ?_⟩
  · rw [readCount_eq_cost]
    exact (hcost _).trans (readPrices_command ..).le
  · rw [delayCount_eq_cost]
    exact (hcost _).trans (delayPrices_command ..)
  · rw [dirCount_eq_cost]
    exact (hcost _).trans (dirPrices_command ..).le
  · rw [wrCount_eq_cost]
    exact (hcost _).trans (wrPrices_command ..).le

/-- Settles O58: the bound is what a command costs when time alone has a price. -/
theorem commandDurationIsBounded : Obligations.CommandDurationIsBounded := by
  intro s w c hidle hh htick
  obtain ⟨n, t, hrun, hend, hrsp, hcost⟩ := command_ends hidle hh nofun htick
  refine ⟨n, t, hrun, hend, hrsp, ?_⟩
  rw [now_eq_cost]
  exact (hcost _).trans (timePrices_command ..).le

end Sys2Proof.Machine

/-! A command does not depend on the past (spec/42_pipeline.md R175; spec/10_state.md R40): O59. In every PHASE some registers are
live; a step looks at no other one, so engines with the same live registers run alike. -/

namespace Sys2Proof.Machine

/-! ### The bits of RAW received so far (R52, R123) -/

/-- The high `n` bits of a byte. -/
def keepHigh (x : Byte) (n : Nat) : Byte := x &&& (0xFF#8 <<< (8 - n))

/-- The first `n` bits received, the others 0. -/
def keepBits (r : Raw) (n : Nat) : Raw where
  b0 := keepHigh r.b0 n
  b1 := keepHigh r.b1 (n - 8)
  b2 := keepHigh r.b2 (n - 16)
  b3 := keepHigh r.b3 (n - 24)
  b4 := keepHigh r.b4 (n - 32)

theorem getLsbD_keepHigh (x : Byte) (n : Nat) {k : Nat} (hk : k < 8) :
    (keepHigh x n).getLsbD k = (decide (7 - k < n) && x.getLsbD k) := by
  have hones : (0xFF#8 <<< (8 - n)).getLsbD k = decide (7 - k < n) := by
    have hff : 0xFF#8 = BitVec.allOnes 8 := rfl
    rw [hff, BitVec.getLsbD_shiftLeft, BitVec.getLsbD_allOnes]
    rw [Bool.eq_iff_iff]
    simp
    omega
  rw [keepHigh, BitVec.getLsbD_and, hones, Bool.and_comm]

theorem Raw.get_keepBits (r : Raw) (n : Nat) (j : Fin 5) : (keepBits r n).get j = keepHigh (r.get j) (n - 8 * j.val) := by
  fin_cases j <;> rfl

theorem getLsbD_keepBits (r : Raw) (n : Nat) (j : Fin 5) {k : Nat} (hk : k < 8) :
    ((keepBits r n).get j).getLsbD k = (decide (8 * j.val + (7 - k) < n) && (r.get j).getLsbD k) := by
  have hpos : 7 - k < n - 8 * j.val ↔ 8 * j.val + (7 - k) < n := by omega
  rw [Raw.get_keepBits, getLsbD_keepHigh _ _ hk, decide_eq_decide.2 hpos]

/-- RAW is known by its bits. -/
theorem Raw.ext_bits {r q : Raw} (h : ∀ (j : Fin 5) (k : Nat), k < 8 → (r.get j).getLsbD k = (q.get j).getLsbD k) :
    r = q :=
  Raw.ext_get fun j => BitVec.eq_of_getLsbD_eq (h j)

/-- Of the bits received the first ones are those received earlier. -/
theorem keepBits_keepBits (r : Raw) {m n : Nat} (h : m ≤ n) : keepBits (keepBits r n) m = keepBits r m := by
  refine Raw.ext_bits fun j k hk => ?_
  simp only [getLsbD_keepBits _ _ _ hk]
  by_cases hpos : 8 * j.val + (7 - k) < m
  · rw [decide_eq_true (hpos.trans_le h), Bool.true_and]
  · rw [decide_eq_false hpos, Bool.false_and, Bool.false_and]

/-- No bit is received before the first one. -/
theorem keepBits_zero (r : Raw) : keepBits r 0 = ⟨0, 0, 0, 0, 0⟩ := by
  refine Raw.ext_bits fun j k hk => ?_
  rw [getLsbD_keepBits _ _ _ hk]
  fin_cases j <;> simp [Raw.get]

/-- Forty bits are all of RAW. -/
theorem keepBits_all (r : Raw) : keepBits r 40 = r := by
  refine Raw.ext_bits fun j k hk => ?_
  rw [getLsbD_keepBits _ _ _ hk, decide_eq_true (by omega), Bool.true_and]

/-- The bit stored next makes up for what was not received before it. -/
theorem keepBits_putBit (s : State) (r : Raw) (v : Level) :
    keepBits ((keepBits r (bitNumber s)).putBit s.byteIdx s.bitIdx v) (bitNumber s + 1) =
      keepBits (r.putBit s.byteIdx s.bitIdx v) (bitNumber s + 1) := by
  refine Raw.ext_bits fun j k hk => ?_
  simp only [getLsbD_keepBits _ _ _ hk, Raw.getLsbD_putBit _ _ _ _ _ _ hk]
  by_cases hcur : j = s.byteIdx ∧ k = s.bitIdx.val
  · rw [if_pos hcur, if_pos hcur]
  · have hne := mt (eq_bitNumber_iff s j hk).1 hcur
    have hpos : 8 * j.val + (7 - k) < bitNumber s + 1 ↔ 8 * j.val + (7 - k) < bitNumber s := by omega
    rw [if_neg hcur, if_neg hcur, decide_eq_decide.2 hpos]
    cases decide (8 * j.val + (7 - k) < bitNumber s) <;> rfl

/-! ### The live registers of a PHASE (R40) -/

/-- OP is live until the frame check has read it. -/
@[simp] def opLive : Phase → Bool
  | .idle => false
  | .extract => false
  | .range => false
  | .done => false
  | .fail => false
  | _ => true

/-- LINE_OE is live where a write or a read is to come before `Dir` is. -/
@[simp] def lineLive : Phase → Bool
  | .stLow => true
  | .stHold => true
  | .stHigh => true
  | .stRelHold => true
  | .stRelease => true
  | .rd _ => true
  | .tk _ => true
  | .bDly => true
  | .bSmp => true
  | _ => false

/-- ELAPSED is live inside a wait. -/
@[simp] def elapsedLive : Phase → Bool
  | .rd _ => true
  | .tk _ => true
  | _ => false

/-- The bits of RAW that are live: those received so far, then the whole frame until it is used. -/
def liveRaw (s : State) : Raw :=
  match s.phase with
  | .rd .w4 => keepBits s.raw (bitNumber s)
  | .tk .w4 => keepBits s.raw (bitNumber s)
  | .bDly => keepBits s.raw (bitNumber s)
  | .bSmp => keepBits s.raw (bitNumber s)
  | .rd .w5 => keepBits s.raw (bitNumber s + 1)
  | .tk .w5 => keepBits s.raw (bitNumber s + 1)
  | .check => s.raw
  | .extract => s.raw
  | .done => if s.due = .raw then s.raw else ⟨0, 0, 0, 0, 0⟩
  | _ => ⟨0, 0, 0, 0, 0⟩

/-- TEMP and HUM are live once extracted, until they are delivered. -/
def pairLive (s : State) : Bool := s.phase = .range || (s.phase = .done && s.due = .pair)

/-- The engine with every register that is not live at one fixed value. -/
def live (s : State) : State :=
  { s with
    op := if opLive s.phase then s.op else .readSample
    lineOE := lineLive s.phase && s.lineOE
    lineOut := true
    elapsed := if elapsedLive s.phase then s.elapsed else 0
    byteIdx := if inBit s.phase then s.byteIdx else 0
    bitIdx := if inBit s.phase then s.bitIdx else 0
    raw := liveRaw s
    sbit := false
    temp := if pairLive s then s.temp else 0
    hum := if pairLive s then s.hum else 0
    status := if s.phase = .done ∨ s.phase = .fail then s.status else .ok
    due := if s.phase = .done then s.due else .nothing }

/-- An outcome as far as it is live. -/
def liveOutcome : Result → Result
  | .next t => .next (live t)
  | .fault e => .fault e
  | .refused e => .refused e

theorem liveOutcome_congr {a b : Result} {t u : State} (ha : a = .next t) (hb : b = .next u) (h : live t = live u) :
    liveOutcome a = liveOutcome b := by
  rw [ha, hb, liveOutcome, liveOutcome, h]

/-- Engines are compared by the live bits of RAW and by the other live registers. -/
theorem live_congr_raw {s t : State} (hraw : liveRaw s = liveRaw t)
    (h : { live s with raw := ⟨0, 0, 0, 0, 0⟩ } = { live t with raw := ⟨0, 0, 0, 0, 0⟩ }) : live s = live t := by
  have hlive : ∀ u, live u = { { live u with raw := ⟨0, 0, 0, 0, 0⟩ } with raw := liveRaw u } := fun _ => rfl
  rw [hlive s, hlive t, hraw, h]

theorem live_nextLevel (s : State) : (live s).nextLevel = s.nextLevel := rfl

/-- Inside a bit the indices are live. -/
theorem bitNumber_live {s : State} (h : inBit s.phase = true) : bitNumber (live s) = bitNumber s := by
  simp [bitNumber, live, h]

/-- What is live stays so. -/
theorem liveRaw_live (s : State) : liveRaw (live s) = liveRaw s := by
  have hphase : (live s).phase = s.phase := rfl
  have hbits : ∀ n, keepBits (keepBits s.raw n) n = keepBits s.raw n := fun n => keepBits_keepBits _ le_rfl
  have hraw : (live s).raw = liveRaw s := rfl
  cases hp : s.phase with
  | rd k | tk k =>
    cases k with
    | w4 | w5 =>
      have hidx := bitNumber_live (s := s) (by rw [hp]; rfl)
      simp only [liveRaw, hphase, hp, hidx, hraw, hbits]
    | _ => simp only [liveRaw, hphase, hp]
  | bDly | bSmp =>
    have hidx := bitNumber_live (s := s) (by rw [hp]; rfl)
    simp only [liveRaw, hphase, hp, hidx, hraw, hbits]
  | done => simp +contextual [liveRaw, live, hp]
  | _ => simp only [liveRaw, hphase, hp, hraw]

/-- START writes the line whether or not the registers it does not read are as before (rows T1 to T6). -/
theorem live_start {s : State} (hsel : select s.phase = .run .start) :
    liveOutcome (exec .start (live s)) = liveOutcome (exec .start s) := by
  cases hp : s.phase with
  | stDir =>
    exact liveOutcome_congr (exec_start_stDir (s := live s) hp) (exec_start_stDir hp)
      (by simp [live, hp, inBit, liveRaw, pairLive])
  | stLow =>
    cases ho : s.lineOE with
    | false =>
      rw [exec_start_write_released (.inl hp) ho, exec_start_write_released (s := live s) (.inl hp) (by simp [live, ho])]
    | true =>
      exact liveOutcome_congr (exec_start_stLow (s := live s) hp (by simp [live, hp, ho])) (exec_start_stLow hp ho)
        (by simp [live, hp, inBit, liveRaw, pairLive])
  | stHold =>
    exact liveOutcome_congr (exec_start_stHold (s := live s) hp) (exec_start_stHold hp)
      (by simp [live, hp, inBit, liveRaw, pairLive])
  | stHigh =>
    cases ho : s.lineOE with
    | false =>
      rw [exec_start_write_released (.inr hp) ho, exec_start_write_released (s := live s) (.inr hp) (by simp [live, ho])]
    | true =>
      exact liveOutcome_congr (exec_start_stHigh (s := live s) hp (by simp [live, hp, ho])) (exec_start_stHigh hp ho)
        (by simp [live, hp, inBit, liveRaw, pairLive])
  | stRelHold =>
    exact liveOutcome_congr (exec_start_stRelHold (s := live s) hp) (exec_start_stRelHold hp)
      (by simp [live, hp, inBit, liveRaw, pairLive])
  | stRelease =>
    exact liveOutcome_congr (exec_start_stRelease (s := live s) hp) (exec_start_stRelease hp)
      (by simp [live, hp, inBit, liveRaw, pairLive])
  | rd k | tk k =>
    rw [hp] at hsel
    cases k <;> cases hsel
  | _ =>
    rw [hp] at hsel
    cases hsel

/-- At the marker of a bit only the bits before it are live (R124). -/
theorem live_at_marker {s : State} (hp : s.phase = .rd .w5) {i : Fin 5} {b : Fin 8}
    (hn : 8 * i.val + (7 - b.val) ≤ bitNumber s + 1) :
    live { (live s).afterRead with byteIdx := i, bitIdx := b, elapsed := 0, phase := .rd .w4 } =
      live { s.afterRead with byteIdx := i, bitIdx := b, elapsed := 0, phase := .rd .w4 } := by
  have hraw : (live s).raw = keepBits s.raw (bitNumber s + 1) := by simp [live, liveRaw, hp]
  exact live_congr_raw ((congrArg (keepBits · _) hraw).trans (keepBits_keepBits _ hn))
    (by simp [live, hp, inBit, pairLive, State.nextLevel])

/-- After the last bit all of RAW is live (R124). -/
theorem live_at_check {s : State} (hp : s.phase = .rd .w5) (hlast : bitNumber s = 39) :
    live { (live s).afterRead with phase := .check } = live { s.afterRead with phase := .check } := by
  have hraw : (live s).raw = s.raw := by simp [live, liveRaw, hp, hlast, keepBits_all]
  exact live_congr_raw hraw (by simp [live, hp, inBit, pairLive, State.nextLevel])

/-- The index advance goes by the indices, which are live at the end of a bit (R124). -/
theorem live_advance {s : State} (hp : s.phase = .rd .w5) :
    live (advance (live s).afterRead) = live (advance s.afterRead) := by
  have hbit : (live s).afterRead.bitIdx = s.bitIdx := by simp [live, hp, inBit]
  have hbyte : (live s).afterRead.byteIdx = s.byteIdx := by simp [live, hp, inBit]
  unfold advance
  rw [hbit, hbyte, afterRead_bitIdx, afterRead_byteIdx]
  split_ifs with h1 h2
  · rw [← live_at_marker hp (by rw [bitNumber]; omega)]
  · exact live_at_marker hp (by rw [bitNumber]; omega)
  · exact live_at_check hp (by rw [bitNumber]; omega)

theorem live_waitExit {k : WaitId} {s : State} (hp : s.phase = .rd k) :
    live (waitExit k (live s).afterRead) = live (waitExit k s.afterRead) := by
  cases k with
  | w1 | w2 => simp [waitExit, live, hp, inBit, liveRaw, pairLive, State.nextLevel]
  | w3 =>
    exact live_congr_raw ((keepBits_zero _).trans (keepBits_zero _).symm)
      (by simp [waitExit, live, hp, inBit, pairLive, State.nextLevel])
  | w4 =>
    have hraw : ∀ u, u.phase = .rd .w4 → liveRaw (waitExit .w4 u.afterRead) = liveRaw u := fun u hu => by
      simp only [liveRaw, hu]
      rfl
    exact live_congr_raw (by rw [hraw _ hp, hraw (live s) hp, liveRaw_live])
      (by simp [waitExit, live, hp, inBit, pairLive, State.nextLevel])
  | w5 => exact live_advance hp

/-- Inside a wait the same bits stay live, read or tick. -/
theorem liveRaw_wait {k : WaitId} {s t : State} (hs : s.phase = .rd k ∨ s.phase = .tk k)
    (ht : t.phase = .rd k ∨ t.phase = .tk k) (hraw : t.raw = s.raw) (hbyte : t.byteIdx = s.byteIdx)
    (hbit : t.bitIdx = s.bitIdx) : liveRaw t = liveRaw s := by
  have hidx : bitNumber t = bitNumber s := by rw [bitNumber, bitNumber, hbyte, hbit]
  obtain hs | hs := hs <;> obtain ht | ht := ht <;> cases k <;> simp only [liveRaw, hs, ht, hraw, hidx]

/-- A read of a wait (rows T7, T8). -/
theorem live_read {k : WaitId} {s : State} (hp : s.phase = .rd k) :
    liveOutcome (perform (select s.phase) (live s)) = liveOutcome (perform (select s.phase) s) := by
  cases ho : s.lineOE with
  | true =>
    have hfault : ∀ u : State, u.phase = s.phase → u.lineOE = true →
        perform (select s.phase) u = .fault .readWhileDriving := fun u hu hoe => by
      rw [← hu, perform_select_wait (.inl (hu.trans hp)), waitStep_rd (hu.trans hp), waitRead, rd_driven hoe]
    rw [hfault _ rfl ho, hfault (live s) rfl (by simp [live, hp, ho])]
  | false =>
    refine liveOutcome_congr (perform_select_read (s := live s) hp (by simp [live, ho])) (perform_select_read hp ho) ?_
    rw [live_nextLevel]
    split
    · have hraw : ∀ u, u.phase = .rd k → liveRaw { u.afterRead with phase := .tk k } = liveRaw u := fun u hu =>
        liveRaw_wait (.inl hu) (.inr rfl) rfl rfl rfl
      refine live_congr_raw (by rw [hraw _ hp, hraw (live s) hp, liveRaw_live]) ?_
      cases k <;> simp [live, hp, inBit, pairLive, State.nextLevel]
    · exact live_waitExit hp

/-- A tick of a wait (rows T9, T10). -/
theorem live_tick {k : WaitId} {s : State} (hp : s.phase = .tk k) :
    liveOutcome (perform (select s.phase) (live s)) = liveOutcome (perform (select s.phase) s) := by
  refine liveOutcome_congr (perform_select_tick (s := live s) hp) (perform_select_tick hp) ?_
  have helapsed : (live s).elapsed = s.elapsed := by simp [live, hp]
  have hparams : (live s).params = s.params := rfl
  rw [helapsed, hparams]
  split
  · have hraw : ∀ (u : State) (n e : Nat), u.phase = .tk k →
        liveRaw { delayUs n u with elapsed := e, phase := .rd k } = liveRaw u := fun u n e hu =>
      liveRaw_wait (.inr hu) (.inl rfl) rfl rfl rfl
    refine live_congr_raw (by rw [hraw _ _ _ hp, hraw (live s) _ _ hp, liveRaw_live]) ?_
    cases k <;> simp [live, hp, inBit, pairLive, delayUs]
  · simp [live, hp, inBit, liveRaw, pairLive, delayUs, raise]

/-- The sample delay (row T11). -/
theorem live_bDly {s : State} (hp : s.phase = .bDly) :
    liveOutcome (exec .rdbit (live s)) = liveOutcome (exec .rdbit s) := by
  refine liveOutcome_congr (exec_rdbit_bDly (s := live s) hp) (exec_rdbit_bDly hp) ?_
  have hraw : ∀ (u : State) (t : List LineOp), u.phase = .bDly → liveRaw { u with trace := t, phase := .bSmp } = liveRaw u :=
    fun u t hu => by
      simp only [liveRaw, hu]
      rfl
  exact live_congr_raw (by rw [hraw _ _ hp, hraw (live s) _ hp, liveRaw_live])
    (by simp [live, hp, inBit, pairLive])

/-- The sample (row T12). -/
theorem live_bSmp {s : State} (hp : s.phase = .bSmp) :
    liveOutcome (exec .rdbit (live s)) = liveOutcome (exec .rdbit s) := by
  cases ho : s.lineOE with
  | true =>
    have hfault : ∀ u : State, u.phase = .bSmp → u.lineOE = true → exec .rdbit u = .fault .readWhileDriving :=
      fun u hu hoe => by simp only [exec, execRdbit, bitStep, hu, sampleBit, rd_driven hoe]
    rw [hfault _ hp ho, hfault (live s) hp (by simp [live, hp, ho])]
  | false =>
    refine liveOutcome_congr (exec_rdbit_bSmp (s := live s) hp (by simp [live, ho])) (exec_rdbit_bSmp hp ho) ?_
    have hnum := bitNumber_live (s := s) (by rw [hp]; rfl)
    have hbit : (live s).bitIdx = s.bitIdx := by simp [live, hp, inBit]
    have hbyte : (live s).byteIdx = s.byteIdx := by simp [live, hp, inBit]
    have hraw : (live s).raw = keepBits s.raw (bitNumber s) := by simp [live, liveRaw, hp]
    refine live_congr_raw ?_ (by simp [live, hp, inBit, pairLive, State.nextLevel])
    show keepBits ((live s).raw.putBit (live s).byteIdx (live s).bitIdx s.nextLevel) (bitNumber (live s) + 1) =
      keepBits (s.raw.putBit s.byteIdx s.bitIdx s.nextLevel) (bitNumber s + 1)
    rw [hnum, hraw, hbit, hbyte, keepBits_putBit]

/-- The frame check (rows T13 to T15): RAW and OP are live. -/
theorem live_check {s : State} (hp : s.phase = .check) : liveOutcome (checkFrame (live s)) = liveOutcome (checkFrame s) := by
  have hraw : (live s).raw = s.raw := by simp [live, liveRaw, hp]
  have hop : (live s).op = s.op := by simp [live, hp]
  simp only [checkFrame, hraw, hop]
  refine liveOutcome_congr rfl rfl ?_
  split
  · cases s.op <;> simp [live, hp, inBit, liveRaw, pairLive, finish]
  · simp [live, hp, inBit, liveRaw, pairLive, raise]

/-- The range test (rows T17, T18): TEMP and HUM are live. -/
theorem live_range {s : State} (hp : s.phase = .range) :
    liveOutcome (exec .rangeCheck (live s)) = liveOutcome (exec .rangeCheck s) := by
  refine liveOutcome_congr rfl rfl ?_
  have htemp : (live s).temp = s.temp := by simp [live, pairLive, hp]
  have hhum : (live s).hum = s.hum := by simp [live, pairLive, hp]
  have hparams : (live s).params = s.params := rfl
  have hvariant : (live s).variant = s.variant := rfl
  rw [htemp, hhum, hparams, hvariant]
  split <;> simp [live, hp, inBit, liveRaw, pairLive, finish, raise]

/-- The completion (rows T19, T20): STATUS and the data due are live. -/
theorem live_deliver {s : State} (hp : s.phase = .done ∨ s.phase = .fail) : live (deliver (live s)) = live (deliver s) := by
  obtain hp | hp := hp
  · cases hd : s.due <;> simp [live, deliver, dueData, hp, hd, inBit, liveRaw, pairLive]
  · simp [live, deliver, hp, inBit, liveRaw, pairLive]

/-- A step looks at the live registers only. -/
theorem live_select (s : State) : liveOutcome (perform (select s.phase) (live s)) = liveOutcome (perform (select s.phase) s) := by
  cases hp : s.phase with
  | idle => simp [select, perform, liveOutcome, live, hp, inBit, liveRaw, pairLive]
  | stDir | stLow | stHold | stHigh | stRelHold | stRelease => exact live_start (by rw [hp]; rfl)
  | rd k => exact hp ▸ live_read hp
  | tk k => exact hp ▸ live_tick hp
  | bDly => exact live_bDly hp
  | bSmp => exact live_bSmp hp
  | check => exact live_check hp
  | extract => 
    refine liveOutcome_congr rfl rfl ?_
    simp [live, hp, inBit, liveRaw, pairLive]
  | range => exact live_range hp
  | done => exact liveOutcome_congr rfl rfl (live_deliver (.inl hp))
  | fail => exact liveOutcome_congr rfl rfl (live_deliver (.inr hp))

/-! ### Commands and steps -/

/-- What a command does is told from the live registers, without the trace (R35). -/
theorem live_accepted {k : State → State} (hk : ∀ t : State, t.phase = .idle → live (k (live t)) = live (k t)) {s u : State}
    (hs : s.phase = .idle) (hu : u.phase = .idle) (h : live (accept s) = live (accept u)) :
    liveOutcome (accepted s k) = liveOutcome (accepted u k) := by
  refine liveOutcome_congr (accepted_idle hs k) (accepted_idle hu k) ?_
  rw [← hk (accept s) hs, ← hk (accept u) hu, h]

theorem live_startRead (o : ReadOp) {s u : State} (hs : s.phase = .idle) (hu : u.phase = .idle)
    (h : live (accept s) = live (accept u)) : liveOutcome (startRead o s) = liveOutcome (startRead o u) := by
  refine live_accepted (fun t ht => ?_) hs hu h
  cases hi : t.inited <;> simp [live, raise, hi, ht, inBit, liveRaw, pairLive]

theorem live_init (v : Variant) {s u : State} (hs : s.phase = .idle) (hu : u.phase = .idle)
    (h : live (accept s) = live (accept u)) : liveOutcome (execInit v s) = liveOutcome (execInit v u) := by
  refine live_accepted (fun t ht => ?_) hs hu h
  cases hcap : allBound t.cap <;> simp [live, raise, finish, hcap, ht, inBit, liveRaw, pairLive]

theorem live_rsvd (v : Bool) {s u : State} (hs : s.phase = .idle) (hu : u.phase = .idle)
    (h : live (accept s) = live (accept u)) : liveOutcome (execRsvd v s) = liveOutcome (execRsvd v u) :=
  live_accepted (fun t ht => by simp [live, raise, ht, inBit, liveRaw, pairLive]) hs hu h

/-- Every command word is one of the four commands (R81). -/
theorem live_command (w : BitVec 3) {s u : State} (hs : s.phase = .idle) (hu : u.phase = .idle)
    (h : live (accept s) = live (accept u)) :
    liveOutcome (exec (decodeCmd w) s) = liveOutcome (exec (decodeCmd w) u) := by
  unfold decodeCmd
  split
  · exact live_init _ hs hu h
  · exact live_startRead _ hs hu h
  · exact live_startRead _ hs hu h
  · exact live_rsvd (cmdV w) hs hu h

theorem takeInputs_live (s : State) : takeInputs (live s) = live (takeInputs s) := by
  have hhost : (live s).host = s.host := rfl
  have hbusy : busy (live s) = busy s := rfl
  unfold takeInputs
  rw [hhost, hbusy]
  repeat' split
  all_goals rfl

/-- A step looks at live registers only. -/
theorem live_step (s : State) : liveOutcome (step (live s)) = liveOutcome (step s) := by
  have haction : action (live s) = action s := rfl
  rw [step_eq_perform, step_eq_perform, haction, takeInputs_live]
  obtain ha | ⟨hidle, w, ha⟩ | ha := action_cases s
  · rw [ha]
    rfl
  · have hidle' : (takeInputs s).phase = .idle := (takeInputs_phase s).trans hidle
    rw [ha]
    refine live_command w (s := live (takeInputs s)) hidle' hidle' ?_
    simp [live, hidle, inBit, liveRaw, pairLive]
  · rw [ha, ← takeInputs_phase s]
    exact live_select _

/-- Outcomes that are the same as far as they are live go on alike. -/
theorem live_andThen {f : State → Result} (hf : ∀ t u, live t = live u → liveOutcome (f t) = liveOutcome (f u))
    {a b : Result} (h : liveOutcome a = liveOutcome b) : liveOutcome (andThen a f) = liveOutcome (andThen b f) := by
  cases a with
  | next t =>
    cases b with
    | next u => exact hf t u (Host.Outcome.next.inj h)
    | _ => cases h
  | _ => cases b <;> simp_all [liveOutcome, andThen]

/-- What goes on from a live outcome. -/
theorem exists_next_of_live {a b : Result} {t : State} (h : liveOutcome a = liveOutcome b) (ha : a = .next t) :
    ∃ u, b = .next u ∧ live u = live t := by
  rw [ha] at h
  cases b with
  | next u => exact ⟨u, rfl, (Host.Outcome.next.inj h).symm⟩
  | _ => cases h

/-- Engines with the same live registers run alike. -/
theorem live_runs (n : Nat) {s u : State} (h : live s = live u) : liveOutcome (runs n s) = liveOutcome (runs n u) := by
  induction n generalizing s u with
  | zero => exact liveOutcome_congr rfl rfl h
  | succ n ih =>
    have hstep : liveOutcome (step s) = liveOutcome (step u) := by rw [← live_step s, h, live_step]
    rw [runs_succ, runs_succ]
    exact live_andThen (fun _ _ => ih) hstep

/-- Settles O59: accepting the command empties the trace; with it gone the two engines have the same live registers. -/
theorem commandsAreIndependentOfThePast : Obligations.CommandsAreIndependentOfThePast := by
  intro s u w c hs hu hhs hhu hparams hvariant hinited hline hreads n t hrun
  have hlive : live (accept { s with rsp := none, host := [], cap := c }) =
      live (accept { u with rsp := none, host := [], cap := c }) := by
    simp [live, accept, inBit, liveRaw, pairLive, hs, hu, hparams, hvariant, hinited, hline, hreads]
  have hstep : liveOutcome (step s) = liveOutcome (step u) := by
    rw [step_accept hs hhs, step_accept hu hhu]
    exact live_command w hs hu hlive
  have hruns : liveOutcome (runs (n + 1) s) = liveOutcome (runs (n + 1) u) :=
    live_andThen (fun _ _ => live_runs n) hstep
  obtain ⟨t', hrun', ht⟩ := exists_next_of_live hruns hrun
  exact ⟨t', hrun', (congrArg State.phase ht :), (congrArg State.trace ht :), (congrArg State.rsp ht :)⟩

end Sys2Proof.Machine
